-- ==== Sys2Proof/Word.lean ====
section
/-! DEFINITION. The word types of the core. A byte sequence of L bytes is kept as the one bit string of
8·L bits that R14 numbers (bit 0 of the string is the most significant bit of byte 0), because the spec
lays every format out as such a string (R32, R44) and walks every buffer bit by bit (R37). Its bytes are
read with `Machine.byteAt` and its bits with `BitVec.getMsbD`. -/

namespace Sys2Proof

/-- An 8-bit element of a byte space (R31). -/
abbrev Byte := BitVec 8

/-- One 16-bit two's-complement word of the SampleBuffer (R38). -/
abbrev Sample := BitVec 16

/-- An IEEE-754 binary64 word: sign, 11 exponent bits, 52 fraction bits (R16). -/
abbrev Binary64 := BitVec 64

/-- The first 11 bytes (88 bits) of a frame (R31 `msg`, R77). -/
abbrev Msg := BitVec 88

/-- An 8-character identification string, `name[0]` in the most significant byte (R31 `name`, R90). -/
abbrev Name8 := BitVec 64

/-- An EncodedFrame: 14 bytes, one string of 112 bits (R32). -/
abbrev Frame := BitVec 112

/-- A SampleBuffer: 4096 words of 16 bits, one string of 65536 bits, word 0 in its most significant bits
(R34, R50; log entry 19). Its words are read with `Machine.wordAt`. -/
abbrev SampBuf := BitVec 65536

/-- A ModulatedBuffer: 256 bytes, one string of 2048 bits (R33, R34). -/
abbrev ModBuf := BitVec 2048

end Sys2Proof
end

