-- ==== Sys2Proof/Config.lean ====
section
/-! DEFINITION. The implementation parameters of R11: the wired constants of R26, and the OPEN
parameters, which are opaque constants (nothing can evaluate them, so a theorem holds for every value
in their range). NUMERICS has the single value exact_real (R17): it is the meaning of the formulas of
Machine/Altitude.lean and Machine/Cpr.lean and needs no field here (log entry 6). -/

namespace Sys2Proof.Config

/-- NZ_BASE: latitude zones per hemisphere at the equator (R12, R64). -/
def nzBase : Nat := 15

/-- GEN: the 25-bit CRC generator (R76). -/
def gen : BitVec 25 := 0x1FFF409#25

/-- DF: the downlink format of every frame (R45). -/
def df : BitVec 5 := 17#5

/-- ID_TC: the type code of the identification report (R47). -/
def idTc : BitVec 5 := 1#5

/-- FRAME_BYTES: the length of an EncodedFrame (R32). -/
def frameBytes : Nat := 14

/-- MSG_BYTES: how many bytes the CRC covers (R77). -/
def msgBytes : Nat := 11

/-- MOD_BYTES: the length of a ModulatedBuffer (R33). -/
def modBytes : Nat := 256

/-- SAMP_WORDS: the length of a full SampleBuffer (R34). -/
def sampWords : Nat := 4096

/-- PAUSE_LEAD: the leading pause in bytes (R102). -/
def pauseLead : Nat := 48

/-- PAUSE_MID: the pause between the two frames in bytes (R102). -/
def pauseMid : Nat := 100

/-- PREAMBLE: the bytes 0xA1, 0x40 (R49, R102). -/
def preamble : BitVec 16 := 0xA140#16

/-- POS_ALT_SEL: the selector the frame assembler passes to the altitude encoder (R84). -/
def posAltSel : Bool := true

/-- The OPEN parameter NL_ZERO has the range 59, 60 (R67). This constant says which; it has no body,
so nothing can be proved of its value (log entry 4). -/
opaque nlZeroIs60 : Bool

/-- NL_ZERO: the number of longitude zones at latitude exactly 0 (R67, log entry 4). -/
def nlZero : Nat := if nlZeroIs60 then 60 else 59

/-- EC: the OPEN 3-bit field after the type code of the identification payload, range 0 to 7
(R93, log entry 5). It has no body. -/
opaque ec : BitVec 3

/-- The two values of SAMPLE_BYTE_ORDER (R11, R38). -/
inductive ByteOrder where
  /-- Low byte first. -/
  | little
  /-- High byte first. -/
  | big
  deriving DecidableEq, Repr, Inhabited

/-- SAMPLE_BYTE_ORDER: the OPEN order of a sample's two bytes once it leaves the core; no rule reads it
(R38, log entry 7). -/
opaque sampleByteOrder : ByteOrder

end Sys2Proof.Config
end

