-- ==== Sys2Proof/Syntax.lean ====
section
/-! DEFINITION. The command bundle of R51 and R52, and `Instr`: one constructor per row of
spec/opcode_table.json. Nine rows are the operations of R10, seven are the operation codes that select
no operation (R54, R119), and six are the data formats the core writes (R44 to R50), which no operation
code selects. -/

namespace Sys2Proof

/-- The 4-bit operation code and the operand ports of R52, all presented at once in parallel (R51). The
ports stand in the order of the table of R52. -/
structure Cmd where
  /-- Operation code. -/
  op : BitVec 4
  /-- Barometric altitude in feet. -/
  alt : Binary64
  /-- Altitude format selector. -/
  sel : Bool
  /-- Latitude in decimal degrees. -/
  lat : Binary64
  /-- Longitude in decimal degrees. -/
  lon : Binary64
  /-- CPR parity: even is false, odd is true. -/
  par : Bool
  /-- Surface flag. -/
  surface : Bool
  /-- ICAO 24-bit address. -/
  icao : BitVec 24
  /-- Capability code. -/
  ca : BitVec 3
  /-- Type code. -/
  tc : BitVec 5
  /-- Surveillance status. -/
  ss : BitVec 2
  /-- NIC supplement bit. -/
  nicsb : BitVec 1
  /-- Time-synchronization bit. -/
  tbit : BitVec 1
  /-- Identification string. -/
  name : Name8
  /-- Message of CRC24. -/
  msg : Msg
  /-- First frame of PPMMOD. -/
  even : Frame
  /-- Second frame of PPMMOD. -/
  odd : Frame
  /-- Whether the second frame is supplied. -/
  oddPresent : Bool
  /-- Modulated buffer of IQCONV. -/
  mbuf : ModBuf
  /-- Byte length of IQCONV. -/
  len : BitVec 9
  /-- Sample value of a 0 bit. -/
  ampMin : Sample
  /-- Sample value of a 1 bit. -/
  ampMax : Sample
  deriving DecidableEq, Repr

/-- The operands of the position report: the operand list of POSFRM (R88), shared by POSIQ (R111). -/
structure PosReport where
  /-- ICAO 24-bit address. -/
  icao : BitVec 24
  /-- Capability code. -/
  ca : BitVec 3
  /-- Type code. -/
  tc : BitVec 5
  /-- Surveillance status. -/
  ss : BitVec 2
  /-- NIC supplement bit. -/
  nicsb : BitVec 1
  /-- Barometric altitude in feet. -/
  alt : Binary64
  /-- Time-synchronization bit. -/
  tbit : BitVec 1
  /-- Latitude in decimal degrees. -/
  lat : Binary64
  /-- Longitude in decimal degrees. -/
  lon : Binary64
  /-- Surface flag. -/
  surface : Bool
  deriving DecidableEq, Repr

/-- The operands of the identification report: the operand list of IDFRM (R96), shared by IDIQ (R112). -/
structure IdReport where
  /-- ICAO 24-bit address. -/
  icao : BitVec 24
  /-- Capability code. -/
  ca : BitVec 3
  /-- Identification string. -/
  name : Name8
  deriving DecidableEq, Repr

/-- The fields of the data format FMT_DF17_POSITION, in the order of its bit string (R45, R46). -/
structure PositionFields where
  /-- Capability, field c. -/
  ca : BitVec 3
  /-- Address, field a. -/
  icao : BitVec 24
  /-- Type code, field t. -/
  tc : BitVec 5
  /-- Surveillance status, field s. -/
  ss : BitVec 2
  /-- NIC supplement bit, field n. -/
  nicsb : BitVec 1
  /-- Altitude field, bits 11:0 of the 25-ft code, field h. -/
  alt12 : BitVec 12
  /-- Time bit, field y. -/
  tbit : BitVec 1
  /-- Even/odd flag, field f. -/
  flag : BitVec 1
  /-- Latitude code, field l. -/
  lat17 : BitVec 17
  /-- Longitude code, field g. -/
  lon17 : BitVec 17
  /-- CRC-24 of the first 88 bits, field p. -/
  pi : BitVec 24
  deriving DecidableEq, Repr

/-- The fields of the data format FMT_DF17_IDENT, in the order of its bit string (R45, R47). -/
structure IdentFields where
  /-- Capability, field c. -/
  ca : BitVec 3
  /-- Address, field a. -/
  icao : BitVec 24
  /-- The field after the type code, field e. -/
  ec : BitVec 3
  /-- CHAR0, field i. -/
  char0 : BitVec 6
  /-- CHAR1, field j. -/
  char1 : BitVec 6
  /-- CHAR2, field k. -/
  char2 : BitVec 6
  /-- CHAR3, field m. -/
  char3 : BitVec 6
  /-- CHAR4, field q. -/
  char4 : BitVec 6
  /-- CHAR5, field r. -/
  char5 : BitVec 6
  /-- CHAR6, field u. -/
  char6 : BitVec 6
  /-- CHAR7, field v. -/
  char7 : BitVec 6
  /-- CRC-24 of the first 88 bits, field p. -/
  pi : BitVec 24
  deriving DecidableEq, Repr

/-- The rows of spec/opcode_table.json. -/
inductive Instr where
  /-- ALTENC, code 0x1 (R61). -/
  | altenc (alt : Binary64) (sel : Bool)
  /-- CPRENC, code 0x2 (R73). -/
  | cprenc (lat lon : Binary64) (par surface : Bool)
  /-- CRC24, code 0x3 (R80). -/
  | crc24 (msg : Msg)
  /-- POSFRM, code 0x4 (R88). -/
  | posfrm (o : PosReport)
  /-- IDFRM, code 0x5 (R96). -/
  | idfrm (o : IdReport)
  /-- PPMMOD, code 0x6 (R104); `none` is odd_present = 0. -/
  | ppmmod (even : Frame) (odd : Option Frame)
  /-- IQCONV, code 0x7 (R108). -/
  | iqconv (mbuf : ModBuf) (len : BitVec 9) (ampMin ampMax : Sample)
  /-- POSIQ, code 0x8 (R111). -/
  | posiq (o : PosReport) (ampMin ampMax : Sample)
  /-- IDIQ, code 0x9 (R112). -/
  | idiq (o : IdReport) (ampMin ampMax : Sample)
  /-- Code 0x0 selects no operation (R54, R119). -/
  | reserved0
  /-- Code 0xA selects no operation (R54, R119). -/
  | reservedA
  /-- Code 0xB selects no operation (R54, R119). -/
  | reservedB
  /-- Code 0xC selects no operation (R54, R119). -/
  | reservedC
  /-- Code 0xD selects no operation (R54, R119). -/
  | reservedD
  /-- Code 0xE selects no operation (R54, R119). -/
  | reservedE
  /-- Code 0xF selects no operation (R54, R119). -/
  | reservedF
  /-- Data format: the airborne-position frame (R46). -/
  | fmtDf17Position (f : PositionFields)
  /-- Data format: the identification frame (R47). -/
  | fmtDf17Ident (f : IdentFields)
  /-- Data format: the 25-ft altitude code, `n` = n[10:0] (R48). -/
  | fmtAltcode25ft (n : BitVec 11)
  /-- Data format: the 100-ft altitude code, `n` = n[11:3] (R48). -/
  | fmtAltcode100ft (n : BitVec 9)
  /-- Data format: the modulated symbol, the frame bit and its complement (R49). -/
  | fmtSymbol (b c : Bool)
  /-- Data format: the I word and the Q word of one modulated bit (R50). -/
  | fmtSamplePair (i q : Sample)
  deriving DecidableEq, Repr

end Sys2Proof
end

