-- ==== Sys2Proof/Machine/State.lean ====
section
/-! DEFINITION. The state of the core: the ten result registers (R21), their eight valid bits (R24) and
STATUS (R25), which R20 says is all of it. Beside them stand the model's own fields for the host side of
the interface (R8, R41, R43): the level of the reset input, the host's pending actions in the order in
which it takes them, and what its last read returned (log entry 1). -/

namespace Sys2Proof.Machine

/-- What a host read names (R43): STATUS, a scalar result register, or one element of a buffer register.
The index types admit only the elements the space has (R39). -/
inductive ReadPort where
  /-- STATUS, readable at any time (R25, R43). -/
  | status
  /-- ALTCODE. -/
  | altcode
  /-- CPR_YZ. -/
  | cprYz
  /-- CPR_XZ. -/
  | cprXz
  /-- CRCREG. -/
  | crcReg
  /-- FRAME_E[i]. -/
  | frameE (i : Fin 14)
  /-- FRAME_O[i]. -/
  | frameO (i : Fin 14)
  /-- MODBUF[i]. -/
  | modBuf (i : Fin 256)
  /-- SAMPBUF[i]. -/
  | sampBuf (i : Fin 4096)
  /-- SLEN. -/
  | slen
  /-- DIAG. -/
  | diag
  deriving DecidableEq, Repr

/-- What a host read returns: the element at its full width, neither sign- nor zero-extended (R43). -/
inductive ReadValue where
  /-- The 4 bits of STATUS. -/
  | bits4 (v : BitVec 4)
  /-- One byte, or DIAG. -/
  | bits8 (v : BitVec 8)
  /-- ALTCODE or SLEN. -/
  | bits13 (v : BitVec 13)
  /-- One sample word. -/
  | bits16 (v : BitVec 16)
  /-- CPR_YZ or CPR_XZ. -/
  | bits19 (v : BitVec 19)
  /-- CRCREG. -/
  | bits24 (v : BitVec 24)
  deriving DecidableEq, Repr

/-- Why a host read returns no value: a fault of the host program (R24, R133). The core goes on, because a
host read changes nothing of it (R40; log entry 18). -/
inductive ReadFault where
  /-- The valid bit of the register is 0 (R24, R133). -/
  | readInvalid (r : ReadPort)
  /-- The word of SAMPBUF is at index SLEN or above (R24, R133). -/
  | readPastSlen (i : Fin 4096)
  /-- STATUS.BUSY is 1 (R132 (b)). -/
  | readBusy (r : ReadPort)
  deriving DecidableEq, Repr

/-- The result of a host read: a value, or a fault of the host program and no value (R43, R133). -/
inductive ReadResult where
  /-- The read returned a value. -/
  | value (v : ReadValue)
  /-- The read returned no value. -/
  | fault (f : ReadFault)
  deriving DecidableEq, Repr

/-- One action of the host. The order of actions is the single total order of R41. -/
inductive HostEvent where
  /-- The host presents a command with cmd_valid = 1 (R130). -/
  | command (c : Cmd)
  /-- The host reads STATUS or a result register (R43). -/
  | read (r : ReadPort)
  /-- The host drives the reset input to a level: true asserts `rst`, false releases it (R128). -/
  | rst (level : Bool)
  deriving DecidableEq, Repr

/-- The state of the core and, below it, of the host side of its interface. -/
structure State where
  /-- ALTCODE, 13 bits (R21). -/
  altcode : BitVec 13
  /-- CPR_YZ, the latitude code, 19 bits (R21). -/
  cprYz : BitVec 19
  /-- CPR_XZ, the longitude code, 19 bits (R21). -/
  cprXz : BitVec 19
  /-- CRCREG, 24 bits (R21). -/
  crcReg : BitVec 24
  /-- FRAME_E, 14 bytes (R21). -/
  frameE : Frame
  /-- FRAME_O, 14 bytes (R21). -/
  frameO : Frame
  /-- MODBUF, 256 bytes (R21). -/
  modBuf : ModBuf
  /-- SLEN, 13 bits (R21). It stands before SAMPBUF so that two states are told apart by it before the
  kernel compares the sample words. -/
  slen : BitVec 13
  /-- SAMPBUF, 4096 words of 16 bits (R21). Those at index SLEN and above hold no value that a host read
  could return (R22, R24; log entry 8). -/
  sampBuf : SampBuf
  /-- DIAG, 8 bits (R21). -/
  diag : BitVec 8
  /-- V_ALT (R24). -/
  vAlt : Bool
  /-- V_CPR, shared by CPR_YZ and CPR_XZ (R24). -/
  vCpr : Bool
  /-- V_CRC (R24). -/
  vCrc : Bool
  /-- V_FE (R24). -/
  vFe : Bool
  /-- V_FO (R24). -/
  vFo : Bool
  /-- V_MOD (R24). -/
  vMod : Bool
  /-- V_SAMP, shared by SAMPBUF and SLEN (R24). -/
  vSamp : Bool
  /-- V_DIAG (R24). -/
  vDiag : Bool
  /-- STATUS, 4 bits: BUSY in bit 0, DONE in bit 1, ERR in bits 3:2 (R25). -/
  status : BitVec 4
  /-- Interface input, the model's own: the level of `rst` (R128). -/
  rst : Bool
  /-- The model's own: the host's pending actions, next first (R27, R41). -/
  host : List HostEvent
  /-- The model's own: the result of the host's last read; none before its first read. -/
  readData : Option ReadResult
  deriving DecidableEq, Repr

/-- Reasons the core stops: there is none. An operation ends in success or in an error outcome, after which
the core is ready for the next command (R117), and a host read changes nothing of the core, also where it
returns no value (R40). What the spec calls a fault of the host program is a `ReadFault` (log entry 18). -/
inductive Fault where
  deriving DecidableEq, Repr

/-- Reasons a row of the operation table has no step. -/
inductive Refusal where
  /-- Raised by exec's arm of an instruction without a meaning; none is left. Safe. -/
  | notModelled (mnemonic : String)
  /-- Raised by the six rows that are data formats the core writes, not commands: no operation code
  selects them, so the decoder of commands never yields one (R51, R54; log entry 2). Safe. -/
  | dataFormat
  deriving DecidableEq, Repr

/-- The state after reset (R30): STATUS = 0 and every valid bit 0. The spec states no content for the
result registers; the zeros here are the model's DESIGN CHOICE (log entry 3), and no host read can
return one while its valid bit is 0. The host has no action pending and has read nothing. -/
def State.reset : State where
  altcode := 0
  cprYz := 0
  cprXz := 0
  crcReg := 0
  frameE := 0
  frameO := 0
  modBuf := 0
  slen := 0
  sampBuf := 0
  diag := 0
  vAlt := false
  vCpr := false
  vCrc := false
  vFe := false
  vFo := false
  vMod := false
  vSamp := false
  vDiag := false
  status := 0
  rst := false
  host := []
  readData := none

end Sys2Proof.Machine
end

