-- ==== Sys2Proof/Machine/Flags.lean ====
section
/-! DEFINITION. STATUS and the handshake signals that follow from it (R25, R118, R130), and DIAG's one
bit per character (R28, R92). -/

namespace Sys2Proof.Machine

/-- The error codes of R118. -/
inductive ErrCode where
  /-- Code 0: the operation succeeded. -/
  | none
  /-- Code 1: the operation code selects no operation (R119). -/
  | illop
  /-- Code 2: the length of IQCONV is above 256 (R120). -/
  | len
  /-- Code 3: a floating-point operand the operation reads is a NaN or an infinity (R121). -/
  | nonFinite
  deriving DecidableEq, Repr

/-- The 2 bits written to STATUS.ERR (R118). -/
def errBits : ErrCode → BitVec 2
  | .none => 0
  | .illop => 1
  | .len => 2
  | .nonFinite => 3

/-- STATUS from its fields: ERR in bits 3:2, DONE in bit 1, BUSY in bit 0 (R25). -/
def statusWord (err : BitVec 2) (done busy : Bool) : BitVec 4 :=
  err ++ BitVec.ofBool done ++ BitVec.ofBool busy

/-- STATUS.BUSY, bit 0 (R25). -/
def State.busy (s : State) : Bool :=
  s.status.getLsbD 0

/-- STATUS.DONE, bit 1 (R25). It is also the level of the signal `done` (R130). -/
def State.done (s : State) : Bool :=
  s.status.getLsbD 1

/-- STATUS.ERR, bits 3:2 (R25). -/
def State.err (s : State) : BitVec 2 :=
  s.status.extractLsb' 2 2

/-- `cmd_ready`: 1 exactly when STATUS.BUSY is 0 and `rst` is released (R130). -/
def State.cmdReady (s : State) : Bool :=
  !s.busy && !s.rst

/-- An 8-bit mask whose bit i is `bad i` (R92). -/
def diagMask (bad : Nat → Bool) : BitVec 8 :=
  BitVec.ofBool (bad 7) ++ BitVec.ofBool (bad 6) ++ BitVec.ofBool (bad 5) ++ BitVec.ofBool (bad 4) ++
    BitVec.ofBool (bad 3) ++ BitVec.ofBool (bad 2) ++ BitVec.ofBool (bad 1) ++ BitVec.ofBool (bad 0)

end Sys2Proof.Machine
end

