-- ==== Sys2Proof/Machine/Operands.lean ====
section
/-! DEFINITION. How operands and buffers are read: bytes of a byte sequence (R13, R14), binary64 words
(R16, R121), and the floored modulo on reals (R15). -/

namespace Sys2Proof.Machine

/-- Byte i of a byte sequence kept as its bit string: byte 0 is the most significant (R14). -/
def byteAt {w : Nat} (b : BitVec w) (i : Nat) : Byte :=
  b.extractLsb' (w - 8 * (i + 1)) 8

/-- Word i of a sequence of 16-bit words kept as its bit string: word 0 is the most significant (R34,
R50). -/
def wordAt {w : Nat} (b : BitVec w) (i : Nat) : Sample :=
  b.extractLsb' (w - 16 * (i + 1)) 16

/-- The sequence of the n words f 0, f 1, ..., f (n - 1) as its bit string. -/
def packWords (f : Nat → Sample) : (n : Nat) → BitVec (16 * n)
  | 0 => 0#0
  | n + 1 => packWords f n ++ f n

/-- The sign bit of a binary64 word. -/
def signBit (w : Binary64) : Bool :=
  w.getLsbD 63

/-- The 11-bit exponent field of a binary64 word. -/
def expField (w : Binary64) : BitVec 11 :=
  w.extractLsb' 52 11

/-- The 52-bit fraction field of a binary64 word. -/
def fracField (w : Binary64) : BitVec 52 :=
  w.extractLsb' 0 52

/-- Neither a NaN nor an infinity: the exponent field is not all ones (R121). -/
def isFinite (w : Binary64) : Bool :=
  expField w != BitVec.allOnes 11

/-- The significand of a finite word as an integer: the hidden 1 stands before the fraction unless the
exponent field is 0 (R16; the IEEE-754 binary64 format, log entry 9). -/
def significand (w : Binary64) : Nat :=
  if expField w = 0 then (fracField w).toNat else 2 ^ 52 + (fracField w).toNat

/-- The magnitude of a finite word: significand times 2^(e - 1075), where e is the exponent field, or 1
for a subnormal (R16, log entry 9). It is exact, and rational because every finite word denotes a
dyadic rational. -/
def magnitude (w : Binary64) : ℚ :=
  let e := max (expField w).toNat 1
  if 1075 ≤ e then ((significand w * 2 ^ (e - 1075) : Nat) : ℚ)
  else mkRat (significand w) (2 ^ (1075 - e))

/-- `val(w)`: the real number a finite word denotes; both zeros denote 0 (R16). -/
def val (w : Binary64) : ℚ :=
  if signBit w then -magnitude w else magnitude w

/-- `x mod m` on reals, for m > 0: x - m·floor(x/m), in [0, m) (R15). The operands of the core are
rational, so rational arithmetic is the exact real arithmetic of R17. -/
def realMod (x m : ℚ) : ℚ :=
  x - m * (⌊x / m⌋ : ℤ)

end Sys2Proof.Machine
end

