-- ==== Sys2Proof/Machine/Ops.lean ====
section
/-! DEFINITION. The named operations over the registers: issuing a command (R130), completing it with
success or with an error outcome (R117, R118; the core's only form of exception, which has no handler and
no return), the host's reads (R43, R133), and the reset input (R128). -/

namespace Sys2Proof.Machine

/-- ALTCODE is written and becomes valid (R21, R24). -/
def State.writeAltcode (s : State) (code : BitVec 13) : State :=
  { s with altcode := code, vAlt := true }

/-- CPR_YZ and CPR_XZ are written and become valid (R21, R24). -/
def State.writeCpr (s : State) (yz xz : BitVec 19) : State :=
  { s with cprYz := yz, cprXz := xz, vCpr := true }

/-- CRCREG is written and becomes valid (R21, R24). -/
def State.writeCrc (s : State) (crc : BitVec 24) : State :=
  { s with crcReg := crc, vCrc := true }

/-- FRAME_E and FRAME_O are written and become valid: the write of a position report (R22). -/
def State.writeFrames (s : State) (even odd : Frame) : State :=
  { s with frameE := even, frameO := odd, vFe := true, vFo := true }

/-- FRAME_E is written and becomes valid and V_FO is cleared: the write of an identification report
(R22). FRAME_O then holds no value; the model leaves its bits, which nothing can read (log entry 13). -/
def State.writeIdent (s : State) (frame : Frame) : State :=
  { s with frameE := frame, vFe := true, vFo := false }

/-- MODBUF is written and becomes valid (R21, R24). -/
def State.writeModBuf (s : State) (buf : ModBuf) : State :=
  { s with modBuf := buf, vMod := true }

/-- The first n words of SAMPBUF and SLEN = n are written and become valid (R22, R108). The words at index n
and above are not written and hold no value afterwards: SLEN says so, and no read returns them (R24; log
entry 8). -/
def State.writeSamples (s : State) (out : Nat → Sample) (n : Nat) : State :=
  { s with
    sampBuf := packWords (fun i => if i < n then out i else wordAt s.sampBuf i) 4096
    slen := BitVec.ofNat 13 n
    vSamp := true }

/-- DIAG is written in full and becomes valid (R28). -/
def State.writeDiag (s : State) (mask : BitVec 8) : State :=
  { s with diag := mask, vDiag := true }

/-- The host's pending actions become `rest`. -/
def State.withHost (s : State) (rest : List HostEvent) : State :=
  { s with host := rest }

/-- The result of the host's last read is d. -/
def State.withReadData (s : State) (d : ReadResult) : State :=
  { s with readData := some d }

/-- Issue: BUSY becomes 1 and DONE becomes 0; ERR keeps the outcome of the last completed operation
(R25, R130). -/
def State.issue (s : State) : State :=
  { s with status := statusWord s.err false true }

/-- Completion with the outcome e: STATUS.ERR receives its code, DONE becomes 1, BUSY becomes 0
(R25, R117 (b), R130). -/
def State.complete (e : ErrCode) (s : State) : State :=
  { s with status := statusWord (errBits e) true false }

/-- An operation that ends without error: its writes have been made, and STATUS says so. -/
def succeed (s : State) : Host.Outcome State Fault Refusal :=
  .next (s.complete .none)

/-- An operation that ends in an error outcome writes no result register and changes no valid bit; only
STATUS records it, and the core is ready for the next command (R117). -/
def fail (e : ErrCode) (s : State) : Host.Outcome State Fault Refusal :=
  .next (s.complete e)

/-- A row of the table that is a data format is no command: nothing issues it (R51, R54, log entry 2). -/
def refuseFormat : Host.Outcome State Fault Refusal :=
  .refused .dataFormat

/-- Whether the register a read names holds a value: its valid bit (R24). STATUS has none. -/
def State.valid (s : State) : ReadPort → Bool
  | .status => true
  | .altcode => s.vAlt
  | .cprYz => s.vCpr
  | .cprXz => s.vCpr
  | .crcReg => s.vCrc
  | .frameE _ => s.vFe
  | .frameO _ => s.vFo
  | .modBuf _ => s.vMod
  | .sampBuf _ => s.vSamp
  | .slen => s.vSamp
  | .diag => s.vDiag

/-- What a valid register or element holds. A word of SAMPBUF has a value below SLEN only (R24). -/
def State.content (s : State) : ReadPort → ReadResult
  | .status => .value (.bits4 s.status)
  | .altcode => .value (.bits13 s.altcode)
  | .cprYz => .value (.bits19 s.cprYz)
  | .cprXz => .value (.bits19 s.cprXz)
  | .crcReg => .value (.bits24 s.crcReg)
  | .frameE i => .value (.bits8 (byteAt s.frameE i))
  | .frameO i => .value (.bits8 (byteAt s.frameO i))
  | .modBuf i => .value (.bits8 (byteAt s.modBuf i))
  | .sampBuf i =>
    if i.val < s.slen.toNat then .value (.bits16 (wordAt s.sampBuf i)) else .fault (.readPastSlen i)
  | .slen => .value (.bits13 s.slen)
  | .diag => .value (.bits8 s.diag)

/-- The result of a host read (R43): STATUS has a value at any time; a result register only while BUSY is 0
(R132) and its valid bit is 1 (R133). Otherwise the read returns no value and is a fault of the host program:
the valid bit says so, and no value is chosen (R24). -/
def State.readPort (s : State) (r : ReadPort) : ReadResult :=
  if r = .status then .value (.bits4 s.status)
  else if s.busy then .fault (.readBusy r)
  else if s.valid r then s.content r
  else .fault (.readInvalid r)

/-- A host read: it changes nothing of the core (R40), and its result, a value or a fault of the host program,
is kept in the model's own field (log entry 18). -/
def State.hostRead (s : State) (r : ReadPort) : State :=
  s.withReadData (s.readPort r)

/-- The core's registers, valid bits and STATUS as reset leaves them (R30); the host side is kept. -/
def State.clear (s : State) : State :=
  { State.reset with rst := s.rst, host := s.host, readData := s.readData }

/-- The host drives `rst` to a level. Asserting it puts the core in the reset state, where it accepts no
command; releasing it leaves the state of R30 (R128). Releasing it when it is released changes nothing. -/
def State.driveRst (s : State) (level : Bool) : State :=
  if level || s.rst then { s.clear with rst := level } else s

end Sys2Proof.Machine
end

