-- ==== Sys2Proof/Machine/Altitude.lean ====
section
/-! DEFINITION. The altitude encoder (R58 to R60) and the operation ALTENC (R61). -/

namespace Sys2Proof.Machine

/-- n = floor((a + 1000) / 25) mod 4096: the low 12 bits of the integer, in two's complement when it is
negative (R58). -/
def altQuantity (a : ℚ) : BitVec 12 :=
  BitVec.ofInt 12 ⌊(a + 1000) / 25⌋

/-- The 25-ft packing: the 14-bit interleaved word with Q = 1 in bit 4 and M = 0 in bit 6, cut to 13
bits (R59). -/
def altCode25 (n : BitVec 12) : BitVec 13 :=
  let w : BitVec 14 :=
    ((n &&& 0xFE0#12).setWidth 14 <<< 2) ||| ((n &&& 0x010#12).setWidth 14 <<< 1) |||
      (n &&& 0x00F#12).setWidth 14 ||| (1#14 <<< 4) ||| (0#14 <<< 6)
  w.setWidth 13

/-- The 100-ft packing, read literally: only n[11:3] shifted left by 1 (R60). -/
def altCode100 (n : BitVec 12) : BitVec 13 :=
  (n &&& 0xFF8#12).setWidth 13 <<< 1

/-- The altitude code for the selector `sel` (R61). -/
def altCode (sel : Bool) (a : ℚ) : BitVec 13 :=
  if sel then altCode25 (altQuantity a) else altCode100 (altQuantity a)

/-- ALTENC: ALTCODE receives the code; a NaN or an infinity ends in E_NONFINITE (R61, R121). -/
def execAltenc (alt : Binary64) (sel : Bool) (s : State) : Host.Outcome State Fault Refusal :=
  if isFinite alt then succeed (s.writeAltcode (altCode sel (val alt)))
  else fail .nonFinite s

end Sys2Proof.Machine
end

