-- ==== Sys2Proof/Machine/NlTable.lean ====
section
/-! DEFINITION. The thresholds T(k) of R68, from k = 59 down to 2. Each entry is (k, t) with
T(k) = t / 10^30 degrees, rounded to 30 decimals. The spec prints 13 decimals; the further digits are
computed from the formula of R68, so that the comparison decides every binary64 latitude
(DEDUCED, log entry 10; Laws/NlFormula.lean proves the table against the formula of R67). -/

namespace Sys2Proof.Machine

/-- The denominator of the thresholds. -/
def nlScale : Nat := 10 ^ 30

/-- (k, T(k) · 10^30) for k = 59 down to 2 (R68). -/
def nlTable : List (Nat × Nat) := [
  (59, 10470471299968774682537907285340), (58, 14828174368687508018709361043505),
  (57, 18186263570714181036392593454460), (56, 21029394926029343377408934373991),
  (55, 23545044865571401213026991450207), (54, 25829247070588554611881746479581),
  (53, 27938987101219165254459673650326), (52, 29911356857318381472809307341984),
  (51, 31772097076811019886385955581277), (50, 33539934362985453345150077941273),
  (49, 35228995977964462936182481260934), (48, 36850251075935466903865558711174),
  (47, 38412418924123042860543908166419), (46, 39922566843338922389938779730085),
  (45, 41386518322602823141365648898033), (44, 42809140122435663329669659253601),
  (43, 44194549514193143313182561733839), (42, 45546267226602535906524833478775),
  (41, 46867332524987677493612942894434), (40, 48160391280966533004923599541344),
  (39, 49427764392557037060703864665520), (38, 50671501655538455501607967258457),
  (37, 51893424691687862103661558793720), (36, 53095161527960159543584159575195),
  (35, 54278174722729189881988989386306), (34, 55443784444950604063474520550606),
  (33, 56593187562059347044955073720518), (32, 57727473538661271869330966445946),
  (31, 58847637761484713587462026861209), (30, 59954592766940467849953560628320)] ++ [
  (29, 61049177742463629864198231562046), (28, 62132166592103427395196881385242),
  (27, 63204274793819382797666457936743), (26, 64266165225674503112204521422849),
  (25, 65318453096820982809131520852735), (24, 66361710083826279676816033830933),
  (23, 67396467740846756880626121794201), (22, 68423220220833396186269900867395),
  (21, 69442426311440316704784942574907), (20, 70454510749876073002129048381731),
  (19, 71459864730289900859520668178756), (18, 72458845447289520091926309988331),
  (17, 73451774416678709515802111819527), (16, 74438934157251428319430093270402),
  (15, 75420562566533628148400542785438), (14, 76396843907944732660039502470756),
  (13, 77367894613281924170076730343599), (12, 78333740829227521950248148650654),
  (11, 79294282254569303911375466067211), (10, 80249232132805156092962401484058),
  (9, 81198013492719512131623806951272), (8, 82139569805106091308982678754059),
  (7, 83071994447198162942977231326367), (6, 83991735629805665035390519499515),
  (5, 84891661907020869618607029073440), (4, 85755416209444194593493868528386),
  (3, 86535369975121013352428008915997), (2, 87000000000000000000000000000000)]

end Sys2Proof.Machine
end

