-- ==== Sys2Proof/Machine/Cpr.lean ====
section
/-! DEFINITION. The CPR position encoder (R64 to R72) and the operation CPRENC (R73). The OPEN value
NL_ZERO is an argument of every function that depends on it; `exec` passes `Config.nlZero`. -/

namespace Sys2Proof.Machine

/-- NZ(p) = 4·NZ_BASE - p (R65). -/
def cprNz (par : Bool) : Nat :=
  4 * Config.nzBase - par.toNat

/-- The undivided span in degrees: 90 on the surface, else 360 (R66). -/
def cprSpan (surface : Bool) : ℚ :=
  if surface then 90 else 360

/-- dLat = span / NZ(p), or the undivided span if NZ(p) = 0 (R66). -/
def cprDLat (par surface : Bool) : ℚ :=
  if cprNz par = 0 then cprSpan surface else cprSpan surface / cprNz par

/-- NL at latitude φ: 1 from 87 degrees on, NL_ZERO at 0, and otherwise the largest k in 2..59 with
|φ| <= T(k), which is the first in the table (R67, R68). -/
def cprNl (nlZero : Nat) (φ : ℚ) : Nat :=
  if 87 ≤ |φ| then 1
  else if φ = 0 then nlZero
  else
    match nlTable.find? fun row => |φ| ≤ mkRat row.2 nlScale with
    | some row => row.1
    | none => 1

/-- dLon = span / max(NL(φ) - p, 1), NL taken at the operand latitude itself (R69). -/
def cprDLon (nlZero : Nat) (φ : ℚ) (par surface : Bool) : ℚ :=
  cprSpan surface / max (cprNl nlZero φ - par.toNat) 1

/-- scale = 2^19 on the surface, else 2^17 (R70). -/
def cprScale (surface : Bool) : Nat :=
  if surface then 2 ^ 19 else 2 ^ 17

/-- floor(scale · (x mod d)/d + 1/2) mod scale (R71, R72). -/
def cprCode (surface : Bool) (x d : ℚ) : BitVec 19 :=
  BitVec.ofInt 19 (⌊cprScale surface * (realMod x d / d) + 1 / 2⌋ % cprScale surface)

/-- The latitude code, zero-extended to 19 bits (R71, R73). -/
def cprLat (φ : ℚ) (par surface : Bool) : BitVec 19 :=
  cprCode surface φ (cprDLat par surface)

/-- The longitude code, zero-extended to 19 bits (R72, R73). -/
def cprLon (nlZero : Nat) (φ lam : ℚ) (par surface : Bool) : BitVec 19 :=
  cprCode surface lam (cprDLon nlZero φ par surface)

/-- CPRENC: CPR_YZ and CPR_XZ receive the codes of one parity; a NaN or an infinity in either operand
ends in E_NONFINITE (R73, R121). -/
def execCprenc (lat lon : Binary64) (par surface : Bool) (s : State) :
    Host.Outcome State Fault Refusal :=
  if isFinite lat && isFinite lon then
    succeed (s.writeCpr (cprLat (val lat) par surface)
      (cprLon Config.nlZero (val lat) (val lon) par surface))
  else fail .nonFinite s

end Sys2Proof.Machine
end

