-- ==== Sys2Proof/Machine/Crc.lean ====
section
/-! DEFINITION. The CRC-24 computer as a function of its 11 bytes (R76 to R78). -/

namespace Sys2Proof.Machine

/-- The scratch buffer: the 11 message bytes followed by 3 zero bytes (R77). -/
def crcScratch (m : Msg) : Frame :=
  m ++ 0#24

/-- One step of R78: if bit k of the buffer, as it stands now, is set, the generator is XORed into the
window [k, k+24]. Bit k+24 of the string is bit 87 - k of the word. -/
def crcStep (buf : Frame) (k : Nat) : Frame :=
  if buf.getMsbD k then buf ^^^ (Config.gen.setWidth 112 <<< (87 - k)) else buf

/-- The division of R78: the 88 message bits in rising order. -/
def crcDivide (buf : Frame) : Frame :=
  (List.range 88).foldl crcStep buf

/-- The remainder: the last 3 bytes of the scratch buffer after the division (R78). -/
def crc24 (m : Msg) : BitVec 24 :=
  (crcDivide (crcScratch m)).extractLsb' 0 24

end Sys2Proof.Machine
end

