-- ==== Sys2Proof/Machine/Frame.lean ====
section
/-! DEFINITION. The frame assembler (R82 to R95) and the operations POSFRM (R88) and IDFRM (R96). The
OPEN values NL_ZERO and EC are arguments of the functions that depend on them. -/

namespace Sys2Proof.Machine

/-- A frame from its first 88 bits: bytes 11 to 13 are the CRC-24 of bytes 0 to 10, most significant
byte first (R45, R87, R95). -/
def frameOf (m : Msg) : Frame :=
  m ++ crc24 m

/-- The header: DF, CA and ICAO (R45). -/
def headerBits (ca : BitVec 3) (icao : BitVec 24) : BitVec 32 :=
  Config.df ++ ca ++ icao

/-- The ALT field: bits 11:0 of the 25-ft code, bit 12 is not transmitted (R84). -/
def altField (a : ℚ) : BitVec 12 :=
  (altCode Config.posAltSel a).setWidth 12

/-- The airborne-position payload, its fields in order (R46). -/
def positionMe (tc : BitVec 5) (ss : BitVec 2) (nicsb : BitVec 1) (alt12 : BitVec 12)
    (tbit flag : BitVec 1) (lat17 lon17 : BitVec 17) : BitVec 56 :=
  tc ++ ss ++ nicsb ++ alt12 ++ tbit ++ flag ++ lat17 ++ lon17

/-- Bytes 0 to 10 of the position frame of one parity: the CPR codes enter with their low 17 bits, the F
flag is the parity (R85, R86). -/
def positionMsg (nlZero : Nat) (o : PosReport) (par : Bool) : Msg :=
  headerBits o.ca o.icao ++
    positionMe o.tc o.ss o.nicsb (altField (val o.alt)) o.tbit (BitVec.ofBool par)
      ((cprLat (val o.lat) par o.surface).setWidth 17)
      ((cprLon nlZero (val o.lat) (val o.lon) par o.surface).setWidth 17)

/-- The position frame of one parity, with a CRC over its own bytes (R87, R88). -/
def positionFrame (nlZero : Nat) (o : PosReport) (par : Bool) : Frame :=
  frameOf (positionMsg nlZero o par)

/-- The three floating-point operands of a position report are finite (R121). -/
def posFinite (o : PosReport) : Bool :=
  isFinite o.alt && isFinite o.lat && isFinite o.lon

/-- The 6-bit code of a character and whether it was replaced: digits unchanged, letters of either case
1 to 26, underscore 32, anything else 32 with a diagnostic (R91, log entry 11). -/
def charMap (ch : Byte) : BitVec 6 × Bool :=
  if 0x30#8 ≤ ch ∧ ch ≤ 0x39#8 then (ch.setWidth 6, false)
  else if 0x41#8 ≤ ch ∧ ch ≤ 0x5A#8 then ((ch - 0x40#8).setWidth 6, false)
  else if 0x61#8 ≤ ch ∧ ch ≤ 0x7A#8 then ((ch - 0x60#8).setWidth 6, false)
  else if ch = 0x5F#8 then (32#6, false)
  else (32#6, true)

/-- The code of character i of a name (R91). -/
def charCode (name : Name8) (i : Nat) : BitVec 6 :=
  (charMap (byteAt name i)).1

/-- DIAG of a name: bit i is 1 when character i was replaced (R92). -/
def nameDiag (name : Name8) : BitVec 8 :=
  diagMask fun i => (charMap (byteAt name i)).2

/-- The eight 6-bit codes of a name, character 0 most significant: the v of R94. -/
def nameBits (name : Name8) : BitVec 48 :=
  charCode name 0 ++ charCode name 1 ++ charCode name 2 ++ charCode name 3 ++
    charCode name 4 ++ charCode name 5 ++ charCode name 6 ++ charCode name 7

/-- Bytes 0 to 10 of the identification frame (R47, R93, R94). -/
def identMsg (ec : BitVec 3) (o : IdReport) : Msg :=
  headerBits o.ca o.icao ++ Config.idTc ++ ec ++ nameBits o.name

/-- The identification frame (R95). -/
def identFrame (ec : BitVec 3) (o : IdReport) : Frame :=
  frameOf (identMsg ec o)

/-- The first 88 bits of FMT_DF17_POSITION (R45, R46). -/
def positionFieldsMsg (f : PositionFields) : Msg :=
  headerBits f.ca f.icao ++
    positionMe f.tc f.ss f.nicsb f.alt12 f.tbit f.flag f.lat17 f.lon17

/-- The first 88 bits of FMT_DF17_IDENT (R45, R47). -/
def identFieldsMsg (f : IdentFields) : Msg :=
  headerBits f.ca f.icao ++ Config.idTc ++ f.ec ++ f.char0 ++ f.char1 ++ f.char2 ++ f.char3 ++
    f.char4 ++ f.char5 ++ f.char6 ++ f.char7

/-- POSFRM: FRAME_E and FRAME_O receive the even and the odd frame (R88). -/
def execPosfrm (o : PosReport) (s : State) : Host.Outcome State Fault Refusal :=
  if posFinite o then
    succeed (s.writeFrames (positionFrame Config.nlZero o false) (positionFrame Config.nlZero o true))
  else fail .nonFinite s

/-- IDFRM: FRAME_E receives the frame and DIAG the mask, and V_FO is cleared; there is no error outcome
(R22, R96). -/
def execIdfrm (o : IdReport) (s : State) : Host.Outcome State Fault Refusal :=
  succeed ((s.writeIdent (identFrame Config.ec o)).writeDiag (nameDiag o.name))

end Sys2Proof.Machine
end

