-- ==== Sys2Proof/WellFormed.lean ====
section
/-! DEFINITION. Which terms of `Instr` the spec's encodings can hold. An operand of a command has exactly
the width of its port (R44, R52), so every command is well formed; a data format is well formed when its
derived fields are what the format says they are (R45 PI, R49, R50). -/

namespace Sys2Proof

/-- Well-formedness of a row's fields. -/
def Instr.wellFormed : Instr → Bool
  | .altenc _ _ => true
  | .cprenc _ _ _ _ => true
  | .crc24 _ => true
  | .posfrm _ => true
  | .idfrm _ => true
  | .ppmmod _ _ => true
  | .iqconv _ _ _ _ => true
  | .posiq _ _ _ => true
  | .idiq _ _ _ => true
  | .reserved0 => true
  | .reservedA => true
  | .reservedB => true
  | .reservedC => true
  | .reservedD => true
  | .reservedE => true
  | .reservedF => true
  | .fmtDf17Position f => f.pi == Machine.crc24 (Machine.positionFieldsMsg f)
  | .fmtDf17Ident f => f.pi == Machine.crc24 (Machine.identFieldsMsg f)
  | .fmtAltcode25ft _ => true
  | .fmtAltcode100ft _ => true
  | .fmtSymbol b c => c == !b
  | .fmtSamplePair i q => q == i

end Sys2Proof
end

