-- ==== Sys2Proof/Decode.lean ====
section
/-! DEFINITION. The decoder and the encoder. A command is the bundle of R51: its operation code alone
selects the operation, which takes its own ports and ignores the others. Every operation code decodes
(R54), so the decoder of commands refuses nothing; the decoder of the data formats refuses by name. The
bundle is also laid out as one string of 2701 bits, the operation code in bits 3:0 as
spec/opcode_table.json numbers them and the ports above it in the order of R52 (DESIGN CHOICE, log
entry 12). -/

namespace Sys2Proof

/-- The bundle whose bits are those of n: each port at its place, lowest first in the order of R52. Bits of
n above the bundle are not read. -/
def Cmd.ofNat (n : Nat) : Cmd where
  op := BitVec.ofNat 4 n
  alt := BitVec.ofNat 64 (n >>> 4)
  sel := n.testBit 68
  lat := BitVec.ofNat 64 (n >>> 69)
  lon := BitVec.ofNat 64 (n >>> 133)
  par := n.testBit 197
  surface := n.testBit 198
  icao := BitVec.ofNat 24 (n >>> 199)
  ca := BitVec.ofNat 3 (n >>> 223)
  tc := BitVec.ofNat 5 (n >>> 226)
  ss := BitVec.ofNat 2 (n >>> 231)
  nicsb := BitVec.ofNat 1 (n >>> 233)
  tbit := BitVec.ofNat 1 (n >>> 234)
  name := BitVec.ofNat 64 (n >>> 235)
  msg := BitVec.ofNat 88 (n >>> 299)
  even := BitVec.ofNat 112 (n >>> 387)
  odd := BitVec.ofNat 112 (n >>> 499)
  oddPresent := n.testBit 611
  mbuf := BitVec.ofNat 2048 (n >>> 612)
  len := BitVec.ofNat 9 (n >>> 2660)
  ampMin := BitVec.ofNat 16 (n >>> 2669)
  ampMax := BitVec.ofNat 16 (n >>> 2685)

/-- The bundle read from its bits. -/
def Cmd.ofBits (b : BitVec 2701) : Cmd :=
  Cmd.ofNat b.toNat

/-- The bundle as bits: the operation code lowest, then the ports in the order of R52. -/
def Cmd.toBits (c : Cmd) : BitVec 2701 :=
  c.ampMax ++ c.ampMin ++ c.len ++ c.mbuf ++ BitVec.ofBool c.oddPresent ++ c.odd ++ c.even ++ c.msg ++
    c.name ++ c.tbit ++ c.nicsb ++ c.ss ++ c.tc ++ c.ca ++
    c.icao ++ BitVec.ofBool c.surface ++ BitVec.ofBool c.par ++ c.lon ++ c.lat ++ BitVec.ofBool c.sel ++ c.alt ++ c.op

/-- The operands of a position report on the ports (R88). -/
def Cmd.posReport (c : Cmd) : PosReport where
  icao := c.icao
  ca := c.ca
  tc := c.tc
  ss := c.ss
  nicsb := c.nicsb
  alt := c.alt
  tbit := c.tbit
  lat := c.lat
  lon := c.lon
  surface := c.surface

/-- The operands of an identification report on the ports (R96). -/
def Cmd.idReport (c : Cmd) : IdReport where
  icao := c.icao
  ca := c.ca
  name := c.name

/-- The decoder of commands: total, by the operation code alone (R51, R54). -/
def decodeCmd (c : Cmd) : Instr :=
  match c.op.toNat with
  | 0x1 => .altenc c.alt c.sel
  | 0x2 => .cprenc c.lat c.lon c.par c.surface
  | 0x3 => .crc24 c.msg
  | 0x4 => .posfrm c.posReport
  | 0x5 => .idfrm c.idReport
  | 0x6 => .ppmmod c.even (if c.oddPresent then some c.odd else none)
  | 0x7 => .iqconv c.mbuf c.len c.ampMin c.ampMax
  | 0x8 => .posiq c.posReport c.ampMin c.ampMax
  | 0x9 => .idiq c.idReport c.ampMin c.ampMax
  | 0x0 => .reserved0
  | 0xA => .reservedA
  | 0xB => .reservedB
  | 0xC => .reservedC
  | 0xD => .reservedD
  | 0xE => .reservedE
  | _ => .reservedF

/-- The bits of one row of the table: a command bundle, or a datum of one of the six data formats (R44,
R51). The formats are told apart by where the datum stands, not by its bits: a position frame with type
code 1 has the same bits as an identification frame (R55). -/
inductive Encoded where
  /-- Format CMD. -/
  | cmd (b : BitVec 2701)
  /-- FMT_DF17_POSITION. -/
  | position (b : Frame)
  /-- FMT_DF17_IDENT. -/
  | ident (b : Frame)
  /-- FMT_ALTCODE_25FT. -/
  | altcode25ft (b : BitVec 13)
  /-- FMT_ALTCODE_100FT. -/
  | altcode100ft (b : BitVec 13)
  /-- FMT_SYMBOL. -/
  | symbol (b : BitVec 2)
  /-- FMT_SAMPLE_PAIR. -/
  | samplePair (b : BitVec 32)
  deriving DecidableEq, Repr

/-- Why a datum is not of its format. -/
inductive DecodeError where
  /-- The first 5 bits of a frame are not DF 17 (R45). -/
  | downlinkFormat
  /-- The type code of an identification frame is not 1 (R47). -/
  | typeCode
  /-- Bytes 11 to 13 are not the CRC-24 of bytes 0 to 10, which invalidates the frame (R32). -/
  | parity
  /-- A 25-ft altitude code with M not 0 or Q not 1 (R48). -/
  | altMarkers
  /-- A 100-ft altitude code whose low 4 bits are not 0 (R48). -/
  | altLowBits
  /-- A pair 0,0 or 1,1, which is no symbol (R49). -/
  | symbol
  /-- The Q word differs from the I word (R50). -/
  | samplePair
  deriving DecidableEq, Repr

/-- The fields of a position frame, at the places of its bit string (R45, R46). -/
def PositionFields.ofBits (b : Frame) : PositionFields where
  ca := b.extractLsb' 104 3
  icao := b.extractLsb' 80 24
  tc := b.extractLsb' 75 5
  ss := b.extractLsb' 73 2
  nicsb := b.extractLsb' 72 1
  alt12 := b.extractLsb' 60 12
  tbit := b.extractLsb' 59 1
  flag := b.extractLsb' 58 1
  lat17 := b.extractLsb' 41 17
  lon17 := b.extractLsb' 24 17
  pi := b.extractLsb' 0 24

/-- The fields of an identification frame, at the places of its bit string (R45, R47). -/
def IdentFields.ofBits (b : Frame) : IdentFields where
  ca := b.extractLsb' 104 3
  icao := b.extractLsb' 80 24
  ec := b.extractLsb' 72 3
  char0 := b.extractLsb' 66 6
  char1 := b.extractLsb' 60 6
  char2 := b.extractLsb' 54 6
  char3 := b.extractLsb' 48 6
  char4 := b.extractLsb' 42 6
  char5 := b.extractLsb' 36 6
  char6 := b.extractLsb' 30 6
  char7 := b.extractLsb' 24 6
  pi := b.extractLsb' 0 24

/-- The decoder of a position frame (R32, R45, R46). -/
def decodePosition (b : Frame) : Except DecodeError Instr :=
  let f := PositionFields.ofBits b
  if b.extractLsb' 107 5 ≠ Config.df then .error .downlinkFormat
  else if f.pi ≠ Machine.crc24 (b.extractLsb' 24 88) then .error .parity
  else .ok (.fmtDf17Position f)

/-- The decoder of an identification frame (R32, R45, R47). -/
def decodeIdent (b : Frame) : Except DecodeError Instr :=
  let f := IdentFields.ofBits b
  if b.extractLsb' 107 5 ≠ Config.df then .error .downlinkFormat
  else if b.extractLsb' 75 5 ≠ Config.idTc then .error .typeCode
  else if f.pi ≠ Machine.crc24 (b.extractLsb' 24 88) then .error .parity
  else .ok (.fmtDf17Ident f)

/-- The decoder of a 25-ft altitude code: bits 4 and 6 are removed and the gaps closed (R48, R63). -/
def decodeAltcode25ft (b : BitVec 13) : Except DecodeError Instr :=
  if b.getLsbD 6 || !b.getLsbD 4 then .error .altMarkers
  else .ok (.fmtAltcode25ft (b.extractLsb' 7 6 ++ b.extractLsb' 5 1 ++ b.extractLsb' 0 4))

/-- The decoder of a 100-ft altitude code (R48). -/
def decodeAltcode100ft (b : BitVec 13) : Except DecodeError Instr :=
  if b.extractLsb' 0 4 ≠ 0 then .error .altLowBits
  else .ok (.fmtAltcode100ft (b.extractLsb' 4 9))

/-- The decoder of a modulated symbol (R49). -/
def decodeSymbol (b : BitVec 2) : Except DecodeError Instr :=
  if b.getLsbD 0 = b.getLsbD 1 then .error .symbol
  else .ok (.fmtSymbol (b.getLsbD 1) (b.getLsbD 0))

/-- The decoder of a sample pair, I in the high word (R50). -/
def decodeSamplePair (b : BitVec 32) : Except DecodeError Instr :=
  if b.extractLsb' 0 16 ≠ b.extractLsb' 16 16 then .error .samplePair
  else .ok (.fmtSamplePair (b.extractLsb' 16 16) (b.extractLsb' 0 16))

/-- The decoder of every row. -/
def decode : Encoded → Except DecodeError Instr
  | .cmd b => .ok (decodeCmd (Cmd.ofBits b))
  | .position b => decodePosition b
  | .ident b => decodeIdent b
  | .altcode25ft b => decodeAltcode25ft b
  | .altcode100ft b => decodeAltcode100ft b
  | .symbol b => decodeSymbol b
  | .samplePair b => decodeSamplePair b

/-- A bundle with every port 0 and the operation code `op`. -/
def Cmd.idle (op : BitVec 4) : Cmd where
  op := op
  alt := 0
  sel := false
  lat := 0
  lon := 0
  par := false
  surface := false
  icao := 0
  ca := 0
  tc := 0
  ss := 0
  nicsb := 0
  tbit := 0
  name := 0
  msg := 0
  even := 0
  odd := 0
  oddPresent := false
  mbuf := 0
  len := 0
  ampMin := 0
  ampMax := 0

/-- A bundle carrying the operands of a position report. -/
def Cmd.withPosReport (c : Cmd) (o : PosReport) : Cmd :=
  { c with
    icao := o.icao, ca := o.ca, tc := o.tc, ss := o.ss, nicsb := o.nicsb, alt := o.alt, tbit := o.tbit
    lat := o.lat, lon := o.lon, surface := o.surface }

/-- A bundle carrying the operands of an identification report. -/
def Cmd.withIdReport (c : Cmd) (o : IdReport) : Cmd :=
  { c with icao := o.icao, ca := o.ca, name := o.name }

/-- The encoder: the operation code of R54 with the operands on their ports and the unused ports 0, or
the bit string of a data format (R45 to R50). -/
def encode : Instr → Encoded
  | .altenc alt sel => .cmd { Cmd.idle 0x1 with alt := alt, sel := sel }.toBits
  | .cprenc lat lon par surface =>
    .cmd { Cmd.idle 0x2 with lat := lat, lon := lon, par := par, surface := surface }.toBits
  | .crc24 msg => .cmd { Cmd.idle 0x3 with msg := msg }.toBits
  | .posfrm o => .cmd ((Cmd.idle 0x4).withPosReport o).toBits
  | .idfrm o => .cmd ((Cmd.idle 0x5).withIdReport o).toBits
  | .ppmmod even (some odd) =>
    .cmd { Cmd.idle 0x6 with even := even, odd := odd, oddPresent := true }.toBits
  | .ppmmod even none => .cmd { Cmd.idle 0x6 with even := even }.toBits
  | .iqconv mbuf len ampMin ampMax =>
    .cmd { Cmd.idle 0x7 with mbuf := mbuf, len := len, ampMin := ampMin, ampMax := ampMax }.toBits
  | .posiq o ampMin ampMax =>
    .cmd { (Cmd.idle 0x8).withPosReport o with ampMin := ampMin, ampMax := ampMax }.toBits
  | .idiq o ampMin ampMax =>
    .cmd { (Cmd.idle 0x9).withIdReport o with ampMin := ampMin, ampMax := ampMax }.toBits
  | .reserved0 => .cmd (Cmd.idle 0x0).toBits
  | .reservedA => .cmd (Cmd.idle 0xA).toBits
  | .reservedB => .cmd (Cmd.idle 0xB).toBits
  | .reservedC => .cmd (Cmd.idle 0xC).toBits
  | .reservedD => .cmd (Cmd.idle 0xD).toBits
  | .reservedE => .cmd (Cmd.idle 0xE).toBits
  | .reservedF => .cmd (Cmd.idle 0xF).toBits
  | .fmtDf17Position f => .position (Machine.positionFieldsMsg f ++ f.pi)
  | .fmtDf17Ident f => .ident (Machine.identFieldsMsg f ++ f.pi)
  | .fmtAltcode25ft n =>
    .altcode25ft (n.extractLsb' 5 6 ++ 0#1 ++ n.extractLsb' 4 1 ++ 1#1 ++ n.extractLsb' 0 4)
  | .fmtAltcode100ft n => .altcode100ft (n ++ 0#4)
  | .fmtSymbol b c => .symbol (BitVec.ofBool b ++ BitVec.ofBool c)
  | .fmtSamplePair i q => .samplePair (i ++ q)

/-- The instruction the decoder of commands reads from a bundle whose bits are w, numbered as
spec/opcode_table.json numbers them, of which the table gives nbits and the rest are 0; none when the
table gives more bits than the bundle has or w has a bit outside nbits (log entry 12). -/
def decodeTableWord (nbits w : Nat) : Option Instr :=
  if nbits ≤ 2701 ∧ w < 2 ^ nbits then some (decodeCmd (Cmd.ofNat w)) else none

end Sys2Proof
end

