-- ==== Sys2Proof/Machine/Checksum.lean ====
section
/-! DEFINITION. The operation CRC24 (R80). -/

namespace Sys2Proof.Machine

/-- CRC24: CRCREG receives the remainder of the message; there is no error outcome (R80). -/
def execCrc24 (msg : Msg) (s : State) : Host.Outcome State Fault Refusal :=
  succeed (s.writeCrc (crc24 msg))

end Sys2Proof.Machine
end

