-- ==== Sys2Proof/Machine/Modulator.lean ====
section
/-! DEFINITION. The Manchester/PPM modulator (R99 to R103) and the operation PPMMOD (R104). -/

namespace Sys2Proof.Machine

/-- The pair emitted for a logical bit: 1,0 for a 0 and 0,1 for a 1 (R99). -/
def ppmPair (t : Bool) : BitVec 2 :=
  if t then 0b01#2 else 0b10#2

/-- M(x): the byte is inverted, then each bit from 7 down to 0 gives a pair (R99). -/
def modByte (x : Byte) : BitVec 16 :=
  let y := ~~~x
  ppmPair (y.getLsbD 7) ++ ppmPair (y.getLsbD 6) ++ ppmPair (y.getLsbD 5) ++ ppmPair (y.getLsbD 4) ++
    ppmPair (y.getLsbD 3) ++ ppmPair (y.getLsbD 2) ++ ppmPair (y.getLsbD 1) ++ ppmPair (y.getLsbD 0)

/-- The 28 modulated bytes of a frame, frame byte 0 first (R33, R102). -/
def modFrame (f : Frame) : BitVec 224 :=
  modByte (byteAt f 0) ++ modByte (byteAt f 1) ++ modByte (byteAt f 2) ++ modByte (byteAt f 3) ++
    modByte (byteAt f 4) ++ modByte (byteAt f 5) ++ modByte (byteAt f 6) ++ modByte (byteAt f 7) ++
    modByte (byteAt f 8) ++ modByte (byteAt f 9) ++ modByte (byteAt f 10) ++ modByte (byteAt f 11) ++
    modByte (byteAt f 12) ++ modByte (byteAt f 13)

/-- A pause of n zero bytes (R49). -/
def pause (n : Nat) : BitVec (8 * n) :=
  0#(8 * n)

/-- What follows the pause after the even frame: the preamble, the modulated odd frame and the trailing
pause, or zeros when the odd frame is absent (R33, R102). -/
def modTail : Option Frame → BitVec 624
  | some odd => Config.preamble ++ modFrame odd ++ pause 48
  | none => pause 78

/-- The 256 bytes of the modulated buffer (R33, R101, R102). -/
def modBuffer (even : Frame) (odd : Option Frame) : ModBuf :=
  pause Config.pauseLead ++ Config.preamble ++ modFrame even ++ pause Config.pauseMid ++ modTail odd

/-- PPMMOD: MODBUF receives the modulated buffer; the frames are not checked and there is no error
outcome (R103, R104). -/
def execPpmmod (even : Frame) (odd : Option Frame) (s : State) : Host.Outcome State Fault Refusal :=
  succeed (s.writeModBuf (modBuffer even odd))

end Sys2Proof.Machine
end

