-- ==== Sys2Proof/Machine/Sample.lean ====
section
/-! DEFINITION. The sample converter (R106, R107) and the operation IQCONV (R108). -/

namespace Sys2Proof.Machine

/-- The I word and the Q word of a modulated bit (R50). -/
def bitSample (ampMin ampMax : Sample) (bit : Bool) : Sample :=
  if bit then ampMax else ampMin

/-- Word i of the output of a conversion: words 2k and 2k + 1 are those of bit k of the buffer, most
significant bit first in each byte (R107). -/
def samples (buf : ModBuf) (ampMin ampMax : Sample) (i : Nat) : Sample :=
  bitSample ampMin ampMax (buf.getMsbD (i / 2))

/-- The write every conversion makes: SAMPBUF[0 .. 16·len - 1] and SLEN = 16·len (R108). -/
def State.convert (s : State) (buf : ModBuf) (len : Nat) (ampMin ampMax : Sample) : State :=
  s.writeSamples (samples buf ampMin ampMax) (16 * len)

/-- IQCONV: a length above 256 ends in E_LEN (R108, R120). -/
def execIqconv (mbuf : ModBuf) (len : BitVec 9) (ampMin ampMax : Sample) (s : State) :
    Host.Outcome State Fault Refusal :=
  if len.toNat ≤ Config.modBytes then succeed (s.convert mbuf len.toNat ampMin ampMax)
  else fail .len s

end Sys2Proof.Machine
end

