-- ==== Sys2Proof/Machine/Composite.lean ====
section
/-! DEFINITION. The composite operations POSIQ (R111) and IDIQ (R112). Frames and modulated buffer are
internal values: neither writes FRAME_E, FRAME_O or MODBUF (R110). -/

namespace Sys2Proof.Machine

/-- The modulated buffer inside POSIQ: both frames of the report (R111). -/
def posBuffer (nlZero : Nat) (o : PosReport) : ModBuf :=
  modBuffer (positionFrame nlZero o false) (some (positionFrame nlZero o true))

/-- The modulated buffer inside IDIQ: the one frame in the place of the even frame (R112). -/
def idBuffer (ec : BitVec 3) (o : IdReport) : ModBuf :=
  modBuffer (identFrame ec o) none

/-- POSIQ: the whole buffer is converted, 4096 words (R111). -/
def execPosiq (o : PosReport) (ampMin ampMax : Sample) (s : State) : Host.Outcome State Fault Refusal :=
  if posFinite o then
    succeed (s.convert (posBuffer Config.nlZero o) Config.modBytes ampMin ampMax)
  else fail .nonFinite s

/-- IDIQ: the whole buffer is converted and DIAG receives the mask; V_FO is not touched and there is no
error outcome (R112). -/
def execIdiq (o : IdReport) (ampMin ampMax : Sample) (s : State) : Host.Outcome State Fault Refusal :=
  succeed ((s.convert (idBuffer Config.ec o) Config.modBytes ampMin ampMax).writeDiag (nameDiag o.name))

end Sys2Proof.Machine
end

