-- ==== Sys2Proof/Machine/Formats.lean ====
section
/-! DEFINITION. The six rows of the table that are data formats. A format is what the core writes into a
buffer, not a command: there is one command format and sixteen operation codes, and none of them selects
a data format (R51, R54). Executing one is refused by name (log entry 2); its bit layout is given by the
encoder and the decoder of Decode.lean. -/

namespace Sys2Proof.Machine

/-- The airborne-position frame is no command (R46, R51). -/
def execFmtDf17Position (_ : PositionFields) (_ : State) : Host.Outcome State Fault Refusal :=
  refuseFormat

/-- The identification frame is no command (R47, R51). -/
def execFmtDf17Ident (_ : IdentFields) (_ : State) : Host.Outcome State Fault Refusal :=
  refuseFormat

/-- The 25-ft altitude code is no command (R48, R51). -/
def execFmtAltcode25ft (_ : BitVec 11) (_ : State) : Host.Outcome State Fault Refusal :=
  refuseFormat

/-- The 100-ft altitude code is no command (R48, R51). -/
def execFmtAltcode100ft (_ : BitVec 9) (_ : State) : Host.Outcome State Fault Refusal :=
  refuseFormat

/-- The modulated symbol is no command (R49, R51). -/
def execFmtSymbol (_ _ : Bool) (_ : State) : Host.Outcome State Fault Refusal :=
  refuseFormat

/-- The sample pair is no command (R50, R51). -/
def execFmtSamplePair (_ _ : Sample) (_ : State) : Host.Outcome State Fault Refusal :=
  refuseFormat

end Sys2Proof.Machine
end

