-- ==== Sys2Proof/Machine/Reserved.lean ====
section
/-! DEFINITION. The seven operation codes that select no operation: each completes with E_ILLOP, reads no
operand and writes no register (R54, R119). -/

namespace Sys2Proof.Machine

/-- Code 0x0 ends in E_ILLOP (R119). -/
def execReserved0 (s : State) : Host.Outcome State Fault Refusal :=
  fail .illop s

/-- Code 0xA ends in E_ILLOP (R119). -/
def execReservedA (s : State) : Host.Outcome State Fault Refusal :=
  fail .illop s

/-- Code 0xB ends in E_ILLOP (R119). -/
def execReservedB (s : State) : Host.Outcome State Fault Refusal :=
  fail .illop s

/-- Code 0xC ends in E_ILLOP (R119). -/
def execReservedC (s : State) : Host.Outcome State Fault Refusal :=
  fail .illop s

/-- Code 0xD ends in E_ILLOP (R119). -/
def execReservedD (s : State) : Host.Outcome State Fault Refusal :=
  fail .illop s

/-- Code 0xE ends in E_ILLOP (R119). -/
def execReservedE (s : State) : Host.Outcome State Fault Refusal :=
  fail .illop s

/-- Code 0xF ends in E_ILLOP (R119). -/
def execReservedF (s : State) : Host.Outcome State Fault Refusal :=
  fail .illop s

end Sys2Proof.Machine
end

