-- ==== Sys2Proof/Machine/Dispatch.lean ====
section
/-! DEFINITION. One arm per row of the operation table. -/

namespace Sys2Proof.Machine

def exec (i : Instr) (s : State) : Host.Outcome State Fault Refusal :=
  match i with
  | .altenc alt sel => Sys2Proof.Machine.execAltenc alt sel s
  | .cprenc lat lon par surface => Sys2Proof.Machine.execCprenc lat lon par surface s
  | .crc24 msg => Sys2Proof.Machine.execCrc24 msg s
  | .posfrm o => Sys2Proof.Machine.execPosfrm o s
  | .idfrm o => Sys2Proof.Machine.execIdfrm o s
  | .ppmmod even odd => Sys2Proof.Machine.execPpmmod even odd s
  | .iqconv mbuf len ampMin ampMax => Sys2Proof.Machine.execIqconv mbuf len ampMin ampMax s
  | .posiq o ampMin ampMax => Sys2Proof.Machine.execPosiq o ampMin ampMax s
  | .idiq o ampMin ampMax => Sys2Proof.Machine.execIdiq o ampMin ampMax s
  | .reserved0 => Sys2Proof.Machine.execReserved0 s
  | .reservedA => Sys2Proof.Machine.execReservedA s
  | .reservedB => Sys2Proof.Machine.execReservedB s
  | .reservedC => Sys2Proof.Machine.execReservedC s
  | .reservedD => Sys2Proof.Machine.execReservedD s
  | .reservedE => Sys2Proof.Machine.execReservedE s
  | .reservedF => Sys2Proof.Machine.execReservedF s
  | .fmtDf17Position f => Sys2Proof.Machine.execFmtDf17Position f s
  | .fmtDf17Ident f => Sys2Proof.Machine.execFmtDf17Ident f s
  | .fmtAltcode25ft n => Sys2Proof.Machine.execFmtAltcode25ft n s
  | .fmtAltcode100ft n => Sys2Proof.Machine.execFmtAltcode100ft n s
  | .fmtSymbol b c => Sys2Proof.Machine.execFmtSymbol b c s
  | .fmtSamplePair iw qw => Sys2Proof.Machine.execFmtSamplePair iw qw s

end Sys2Proof.Machine
end

