-- ==== Sys2Proof/Machine/Host.lean ====
section
/-! DEFINITION. The host side of the interface (R8, R41, R43, R128, R130): what one action of the host
does. The core fetches nothing (R27); the actions stand in State in the order in which the host takes
them, and a step takes the first (log entry 1). -/

namespace Sys2Proof.Machine

/-- The host presents a command. It is issued when `cmd_ready` is 1: its operands are sampled, it is
decoded, and it runs from issue to completion in this one step (R9, R130, R131). Otherwise it is not
issued, has no effect and is not remembered (R128, R132 (a)). -/
def State.present (s : State) (c : Cmd) : Host.Outcome State Fault Refusal :=
  if s.cmdReady then exec (decodeCmd c) s.issue else .next s

/-- One action of the host. -/
def State.act (s : State) : HostEvent → Host.Outcome State Fault Refusal
  | .command c => s.present c
  | .read r => .next (s.hostRead r)
  | .rst level => .next (s.driveRst level)

/-- The first pending action is taken; with none pending no command is presented and nothing changes. -/
def State.advance (s : State) : Host.Outcome State Fault Refusal :=
  match s.host with
  | [] => .next s
  | e :: rest => (s.withHost rest).act e

/-- The host's next action is to present the command c, and the core is ready for it: `rst` is released
and BUSY is 0. -/
def State.presentNext (s : State) (c : Cmd) : State :=
  { s with
    host := .command c :: s.host
    rst := false
    status := statusWord s.err s.done false }

end Sys2Proof.Machine
end

