-- ==== Sys2Proof/Machine/Step.lean ====
section
/-! DEFINITION. One step of the core: one action of the host, and with it, when the action is a command
that is issued, one whole operation from issue to completion (R9). -/

namespace Sys2Proof.Machine

/-- One step. -/
def step (s : State) : Host.Outcome State Fault Refusal :=
  s.advance

/-- The state whose very next step runs the command whose bits are w (log entry 1): the host presents it
next, and the core is ready to take it. -/
def State.withFetchWord (s : State) (_nbits w : Nat) : State :=
  s.presentNext (Cmd.ofNat w)

end Sys2Proof.Machine
end

