-- ==== Sys2Proof/Safety.lean ====
section
/-! DEFINITION. The terms claims use: the invariant that every step keeps, and the spec's formulas written
over the real numbers, with the real cosine and arc cosine of R15, against which the rational arithmetic
of the model is stated. The real formulas are for claims only; no step evaluates them. -/

namespace Sys2Proof.Machine

/-- A frame the core assembles: its first 5 bits are DF and bytes 11 to 13 are the CRC-24 of bytes 0 to 10
(R32, R98). -/
abbrev frameOk (f : Frame) : Prop :=
  f.extractLsb' 107 5 = Config.df ∧ f.extractLsb' 0 24 = crc24 (f.extractLsb' 24 88)

/-- The even and the odd frame of one position report: bytes 0 to 5 agree, and the F flag is 0 in the even
frame and 1 in the odd one (R83, R89 (b)). -/
abbrev framePairOk (e o : Frame) : Prop :=
  e.extractLsb' 64 48 = o.extractLsb' 64 48 ∧ e.getLsbD 58 = false ∧ o.getLsbD 58 = true

/-- The bytes of a modulated buffer that do not depend on the frames: the two pauses, the first preamble
and the trailing pause (R33). -/
abbrev modBufOk (b : ModBuf) : Prop :=
  (∀ i : Fin 48, byteAt b i = 0) ∧ byteAt b 48 = 0xA1#8 ∧ byteAt b 49 = 0x40#8 ∧
    (∀ i : Fin 100, byteAt b (78 + i) = 0) ∧ (∀ i : Fin 48, byteAt b (208 + i) = 0)

/-- A SampleBuffer as a conversion leaves it: SLEN is at most 4096 and a multiple of 16, and below it the I
word and the Q word of each pair are equal (R34, R107, R109). -/
abbrev samplesOk (words : SampBuf) (slen : BitVec 13) : Prop :=
  slen.toNat ≤ 4096 ∧ slen.toNat % 16 = 0 ∧
    ∀ k < slen.toNat / 2, wordAt words (2 * k) = wordAt words (2 * k + 1)

/-- The invariant of the core. -/
structure State.Inv (s : State) : Prop where
  /-- Between steps no operation is in progress (R25). -/
  notBusy : s.busy = false
  /-- A valid FRAME_E is a frame. -/
  frameE : s.vFe = true → frameOk s.frameE
  /-- A valid FRAME_O is a frame. -/
  frameO : s.vFo = true → frameOk s.frameO
  /-- FRAME_O is valid only beside the FRAME_E of the same report (R22). -/
  frames : s.vFo = true → s.vFe = true ∧ framePairOk s.frameE s.frameO
  /-- A valid MODBUF has the layout. -/
  modBuf : s.vMod = true → modBufOk s.modBuf
  /-- A valid SAMPBUF and its SLEN are as a conversion leaves them. -/
  samples : s.vSamp = true → samplesOk s.sampBuf s.slen

end Sys2Proof.Machine

namespace Sys2Proof.Reference

/-- `x mod m` on reals (R15). -/
noncomputable def realMod (x m : ℝ) : ℝ :=
  x - m * ⌊x / m⌋

/-- A binary64 word is neither a NaN nor an infinity: its exponent field is not all ones (R121). -/
abbrev Finite (w : Binary64) : Prop :=
  w.extractLsb' 52 11 ≠ 0x7FF#11

/-- The floating-point operands of a position report are finite (R121). -/
abbrev FiniteReport (o : PosReport) : Prop :=
  Finite o.alt ∧ Finite o.lat ∧ Finite o.lon

/-- The real number a finite binary64 word denotes (R16, the IEEE-754 format). -/
noncomputable def ieeeValue (w : Binary64) : ℝ :=
  (if w.getLsbD 63 then -1 else 1) *
    if w.extractLsb' 52 11 = 0 then ((w.extractLsb' 0 52).toNat : ℝ) * 2 ^ (-1074 : ℤ)
    else (2 ^ 52 + ((w.extractLsb' 0 52).toNat : ℝ)) * 2 ^ (((w.extractLsb' 52 11).toNat : ℤ) - 1075)

/-- n of the altitude encoder (R58). -/
noncomputable def altQuantity (a : ℝ) : ℤ :=
  ⌊(a + 1000) / 25⌋ % 4096

/-- NZ(p) (R65), with p the parity. -/
def nz (par : Bool) : ℤ :=
  if par then 59 else 60

/-- The span in degrees (R66). -/
def span (surface : Bool) : ℤ :=
  if surface then 90 else 360

/-- scale (R70). -/
def scale (surface : Bool) : ℤ :=
  if surface then 2 ^ 19 else 2 ^ 17

/-- The closed formula for the number of longitude zones, for 0 < L < 87 (R67). -/
noncomputable def nlFormula (L : ℝ) : ℤ :=
  ⌊2 * Real.pi /
    Real.arccos (1 - (1 - Real.cos (Real.pi / 30)) / Real.cos (Real.pi / 180 * L) ^ 2)⌋

/-- NL(φ), with NL_ZERO as an argument (R67). -/
noncomputable def nl (nlZero : ℕ) (φ : ℝ) : ℤ :=
  if 87 ≤ |φ| then 1 else if φ = 0 then nlZero else nlFormula |φ|

/-- dLat (R66). -/
noncomputable def dLat (par surface : Bool) : ℝ :=
  span surface / nz par

/-- dLon (R69). -/
noncomputable def dLon (nlZero : ℕ) (φ : ℝ) (par surface : Bool) : ℝ :=
  span surface / (max (nl nlZero φ - if par then 1 else 0) 1 : ℤ)

/-- The latitude or longitude code of a coordinate x in zones of size d (R71, R72). -/
noncomputable def code (surface : Bool) (x d : ℝ) : ℤ :=
  ⌊scale surface * (realMod x d / d) + 1 / 2⌋ % scale surface

/-- A bit vector as a polynomial over the two-element field, bit i the coefficient of x^i (R79 (a)). -/
noncomputable def poly {w : ℕ} (b : BitVec w) : Polynomial (ZMod 2) :=
  ∑ i ∈ Finset.range w, if b.getLsbD i then Polynomial.X ^ i else 0

/-- One step of the shift-register form of the CRC: a bit is shifted into the 25-bit register, and the
generator is XORed in when bit 24 is then 1 (R79 (b)). -/
def shiftStep (r : BitVec 25) (bit : Bool) : BitVec 25 :=
  let r' := (r <<< 1) ||| (BitVec.ofBool bit).setWidth 25
  if r'.getLsbD 24 then r' ^^^ Config.gen else r'

/-- The shift register after the 112 bits of a frame in rising order (R79 (b)). -/
def shiftRegister (f : Frame) : BitVec 25 :=
  (List.range 112).foldl (fun r k => shiftStep r (f.getMsbD k)) 0

/-- The ALT field of the position frame: the low 12 bits of the 25-ft code of n (R48, R84). -/
def altBits (n : BitVec 12) : BitVec 12 :=
  n.extractLsb' 5 5 ++ 0#1 ++ n.extractLsb' 4 1 ++ 1#1 ++ n.extractLsb' 0 4

/-- Bytes 0 to 3 of every frame (R45). -/
structure HeaderBytes (ca : BitVec 3) (icao : BitVec 24) (f : Frame) : Prop where
  /-- DF and CA. -/
  b0 : Machine.byteAt f 0 = 0x88#8 ||| ca.setWidth 8
  /-- icao[23:16]. -/
  b1 : Machine.byteAt f 1 = icao.extractLsb' 16 8
  /-- icao[15:8]. -/
  b2 : Machine.byteAt f 2 = icao.extractLsb' 8 8
  /-- icao[7:0]. -/
  b3 : Machine.byteAt f 3 = icao.extractLsb' 0 8

/-- Bytes 11 to 13 of a frame: the CRC-24 of its bytes 0 to 10 (R87, R95). -/
structure CrcBytes (f : Frame) : Prop where
  /-- crc[23:16]. -/
  b11 : Machine.byteAt f 11 = (Machine.crc24 (f.extractLsb' 24 88)).extractLsb' 16 8
  /-- crc[15:8]. -/
  b12 : Machine.byteAt f 12 = (Machine.crc24 (f.extractLsb' 24 88)).extractLsb' 8 8
  /-- crc[7:0]. -/
  b13 : Machine.byteAt f 13 = (Machine.crc24 (f.extractLsb' 24 88)).extractLsb' 0 8

/-- Bytes 4 to 10 of the position frame of parity p, from the ALT field and the two 17-bit codes (R86). -/
structure PositionBytes (o : PosReport) (par : Bool) (alt12 : BitVec 12) (lat17 lon17 : BitVec 17)
    (f : Frame) : Prop where
  /-- TC, SS, NICSB. -/
  b4 : Machine.byteAt f 4 = (o.tc.setWidth 8 <<< 3) ||| (o.ss.setWidth 8 <<< 1) ||| o.nicsb.setWidth 8
  /-- alt12[11:4]. -/
  b5 : Machine.byteAt f 5 = alt12.extractLsb' 4 8
  /-- alt12[3:0], the time bit, the parity, lat17[16:15]. -/
  b6 : Machine.byteAt f 6 = ((alt12.extractLsb' 0 4).setWidth 8 <<< 4) ||| (o.tbit.setWidth 8 <<< 3) |||
    ((BitVec.ofBool par).setWidth 8 <<< 2) ||| (lat17.extractLsb' 15 2).setWidth 8
  /-- lat17[14:7]. -/
  b7 : Machine.byteAt f 7 = lat17.extractLsb' 7 8
  /-- lat17[6:0], lon17[16]. -/
  b8 : Machine.byteAt f 8 = ((lat17.extractLsb' 0 7).setWidth 8 <<< 1) ||| (lon17.extractLsb' 16 1).setWidth 8
  /-- lon17[15:8]. -/
  b9 : Machine.byteAt f 9 = lon17.extractLsb' 8 8
  /-- lon17[7:0]. -/
  b10 : Machine.byteAt f 10 = lon17.extractLsb' 0 8

/-- The position frame of parity p that R84 to R87 give a report: its ALT field from n of R58, its codes
the low 17 bits of those of R71 and R72, over the reals. -/
def PositionFrame (nlZero : ℕ) (o : PosReport) (par : Bool) (f : Frame) : Prop :=
  ∃ (n : BitVec 12) (lat17 lon17 : BitVec 17),
    (n.toNat : ℤ) = altQuantity (Machine.val o.alt) ∧
    (lat17.toNat : ℤ) = code o.surface (Machine.val o.lat) (dLat par o.surface) % 2 ^ 17 ∧
    (lon17.toNat : ℤ) =
      code o.surface (Machine.val o.lon) (dLon nlZero (Machine.val o.lat) par o.surface) % 2 ^ 17 ∧
    HeaderBytes o.ca o.icao f ∧ PositionBytes o par (altBits n) lat17 lon17 f ∧ CrcBytes f

/-- The row of the character map for a character code: the 6-bit code and whether the character was
replaced (R91). -/
def charRow (ch : ℕ) : ℕ × Bool :=
  if 0x30 ≤ ch ∧ ch ≤ 0x39 then (ch, false)
  else if 0x41 ≤ ch ∧ ch ≤ 0x5A then (ch - 0x40, false)
  else if 0x61 ≤ ch ∧ ch ≤ 0x7A then (ch - 0x60, false)
  else if ch = 0x5F then (32, false)
  else (32, true)

/-- The 6-bit code of character i of a name (R91). -/
def charOf (name : Name8) (i : ℕ) : BitVec 6 :=
  BitVec.ofNat 6 (charRow (Machine.byteAt name i).toNat).1

/-- Bytes 4 to 10 of the identification frame (R93, R94). -/
structure IdentBytes (ec : BitVec 3) (name : Name8) (f : Frame) : Prop where
  /-- The type code 1 and EC. -/
  b4 : Machine.byteAt f 4 = 0x08#8 ||| ec.setWidth 8
  /-- c[0], c[1][5:4]. -/
  b5 : Machine.byteAt f 5 =
    ((charOf name 0).setWidth 8 <<< 2) ||| ((charOf name 1).extractLsb' 4 2).setWidth 8
  /-- c[1][3:0], c[2][5:2]. -/
  b6 : Machine.byteAt f 6 =
    (((charOf name 1).extractLsb' 0 4).setWidth 8 <<< 4) ||| ((charOf name 2).extractLsb' 2 4).setWidth 8
  /-- c[2][1:0], c[3]. -/
  b7 : Machine.byteAt f 7 =
    (((charOf name 2).extractLsb' 0 2).setWidth 8 <<< 6) ||| (charOf name 3).setWidth 8
  /-- c[4], c[5][5:4]. -/
  b8 : Machine.byteAt f 8 =
    ((charOf name 4).setWidth 8 <<< 2) ||| ((charOf name 5).extractLsb' 4 2).setWidth 8
  /-- c[5][3:0], c[6][5:2]. -/
  b9 : Machine.byteAt f 9 =
    (((charOf name 5).extractLsb' 0 4).setWidth 8 <<< 4) ||| ((charOf name 6).extractLsb' 2 4).setWidth 8
  /-- c[6][1:0], c[7]. -/
  b10 : Machine.byteAt f 10 =
    (((charOf name 6).extractLsb' 0 2).setWidth 8 <<< 6) ||| (charOf name 7).setWidth 8

/-- The 28 bytes from index `start` of a modulated buffer are the modulated bytes of a frame: bit 7 - j of
frame byte i gives the pair (b, 1 - b) in bits 15 - 2j and 14 - 2j of the two bytes (R33, R99). -/
def ModulatedAt (b : ModBuf) (start : ℕ) (f : Frame) : Prop :=
  ∀ i < 14, ∀ j < 8,
    (Machine.byteAt b (start + 2 * i) ++ Machine.byteAt b (start + 1 + 2 * i)).getLsbD (15 - 2 * j) =
        (Machine.byteAt f i).getLsbD (7 - j) ∧
      (Machine.byteAt b (start + 2 * i) ++ Machine.byteAt b (start + 1 + 2 * i)).getLsbD (14 - 2 * j) =
        !(Machine.byteAt f i).getLsbD (7 - j)

/-- The bytes from index lo up to but not including hi are 0x00. -/
def ZeroBytes (b : ModBuf) (lo hi : ℕ) : Prop :=
  ∀ i, lo ≤ i → i < hi → Machine.byteAt b i = 0x00#8

/-- The layout of the modulated buffer (R33). -/
def BufferLayout (even : Frame) (odd : Option Frame) (b : ModBuf) : Prop :=
  ZeroBytes b 0 48 ∧ Machine.byteAt b 48 = 0xA1#8 ∧ Machine.byteAt b 49 = 0x40#8 ∧ ModulatedAt b 50 even ∧
    ZeroBytes b 78 178 ∧
    match odd with
    | some o =>
      Machine.byteAt b 178 = 0xA1#8 ∧ Machine.byteAt b 179 = 0x40#8 ∧ ModulatedAt b 180 o ∧
        ZeroBytes b 208 256
    | none => ZeroBytes b 178 256

/-- How many of the bits of a bit string are 1. -/
def ones {w : ℕ} (b : BitVec w) : ℕ :=
  (List.range w).countP fun k => b.getMsbD k

/-- The words of the first len bytes of a buffer: words 2k and 2k + 1 are the maximum when bit
7 - (k mod 8) of byte k div 8 is 1, else the minimum (R107). Nothing is said of the words above. -/
def SampleWords (b : ModBuf) (len : ℕ) (lo hi : Sample) (words : SampBuf) : Prop :=
  ∀ k < 8 * len,
    Machine.wordAt words (2 * k) = (if (Machine.byteAt b (k / 8)).getLsbD (7 - k % 8) then hi else lo) ∧
      Machine.wordAt words (2 * k + 1) =
        (if (Machine.byteAt b (k / 8)).getLsbD (7 - k % 8) then hi else lo)

/-- How many of the 4096 words of a SampleBuffer are w. -/
def countWords (words : SampBuf) (w : Sample) : ℕ :=
  (List.range 4096).countP fun i => Machine.wordAt words i == w

end Sys2Proof.Reference
end

