-- ==== Sys2Proof/Certificates/Slice0/Obligations.lean ====
section
/-! DEFINITION. The statements for the provers. A result statement gives the whole next state, so it is
also the instruction's frame: what the record update does not name is unchanged. STATUS after an operation
is written {ERR, DONE, BUSY}: 0b0010 is success, 0b0110, 0b1010 and 0b1110 are E_ILLOP, E_LEN and
E_NONFINITE (R25, R118). The spec's formulas over the reals stand in Safety.lean. -/

open Sys2Proof Sys2Proof.Machine

/-- R30: STATUS and every valid bit after reset, and no result register holds a value. (Which bits the
result registers hold is the model's choice, log entry 3, and is not stated.) -/
def Obligations.ResetClearsStatusAndValidBits : Prop :=
  State.reset.status = 0#4 ∧ State.reset.vAlt = false ∧ State.reset.vCpr = false ∧
    State.reset.vCrc = false ∧ State.reset.vFe = false ∧ State.reset.vFo = false ∧
    State.reset.vMod = false ∧ State.reset.vSamp = false ∧ State.reset.vDiag = false ∧
    ∀ r : ReadPort, r ≠ .status → State.reset.readPort r = .fault (.readInvalid r)

/-- R54: the operation code alone selects the operation, which takes the ports listed for it. -/
def Obligations.OperationCodeSelectsOperation : Prop :=
  ∀ c : Cmd,
    (c.op = 0x1 → decodeCmd c = .altenc c.alt c.sel) ∧
    (c.op = 0x2 → decodeCmd c = .cprenc c.lat c.lon c.par c.surface) ∧
    (c.op = 0x3 → decodeCmd c = .crc24 c.msg) ∧
    (c.op = 0x4 → decodeCmd c =
      .posfrm ⟨c.icao, c.ca, c.tc, c.ss, c.nicsb, c.alt, c.tbit, c.lat, c.lon, c.surface⟩) ∧
    (c.op = 0x5 → decodeCmd c = .idfrm ⟨c.icao, c.ca, c.name⟩) ∧
    (c.op = 0x6 → decodeCmd c = .ppmmod c.even (if c.oddPresent then some c.odd else none)) ∧
    (c.op = 0x7 → decodeCmd c = .iqconv c.mbuf c.len c.ampMin c.ampMax) ∧
    (c.op = 0x8 → decodeCmd c =
      .posiq ⟨c.icao, c.ca, c.tc, c.ss, c.nicsb, c.alt, c.tbit, c.lat, c.lon, c.surface⟩
        c.ampMin c.ampMax) ∧
    (c.op = 0x9 → decodeCmd c = .idiq ⟨c.icao, c.ca, c.name⟩ c.ampMin c.ampMax)

/-- Words written out from the table's encodings decode to their instructions. -/
def Obligations.TableWordsDecode : Prop :=
  decodeTableWord 8 0x1 = some (.altenc 0 false) ∧
    decodeTableWord 72 0x40C38780000000001 = some (.altenc 0x40C3878000000000#64 false) ∧
    decodeTableWord 8 0x3 = some (.crc24 0) ∧
    decodeTableWord 8 0x9 = some (.idiq ⟨0, 0, 0⟩ 0 0) ∧
    decodeTableWord 8 0xA = some .reservedA

/-- Decode and encode agree: every well-formed row is read back from its own bits, whatever its fields
(R44, R45 to R50, R54). -/
def Obligations.DecodeEncodeRoundTrip : Prop :=
  ∀ i : Instr, i.wellFormed = true → decode (encode i) = .ok i

/-- What the decoder accepts is well formed, and a datum of a data format it accepts is the encoding of
what it read: no bit of a format is ignored (R32, R45 to R50). -/
def Obligations.AcceptedDataAreTheirEncoding : Prop :=
  ∀ (e : Encoded) (i : Instr), decode e = .ok i →
    i.wellFormed = true ∧ ((∀ b, e ≠ .cmd b) → encode i = e)

/-- R14: bit k of a byte sequence is bit 7 - (k mod 8) of byte k div 8. -/
def Obligations.BitsAreNumberedFromTheFirstByte : Prop :=
  ∀ (n : ℕ) (b : BitVec (8 * n)) (k : ℕ), k < 8 * n →
    b.getMsbD k = (byteAt b (k / 8)).getLsbD (7 - k % 8)

/-- R16: `val` is the value of the IEEE-754 binary64 format (log entry 9). -/
def Obligations.OperandValueIsBinary64 : Prop :=
  ∀ w : Binary64, Reference.Finite w → ((val w : ℚ) : ℝ) = Reference.ieeeValue w

/-- A step runs the decoded command: when the host's next action presents a command and the core is ready,
the step is exec of the decoded instruction in the state in which the command has been issued (BUSY = 1,
DONE = 0) and the action is taken (R130). -/
def Obligations.StepRunsTheDecodedCommand : Prop :=
  ∀ (s : State) (c : Cmd) (rest : List HostEvent),
    s.host = .command c :: rest → s.busy = false → s.rst = false →
      step s = exec (decodeCmd c) { s with host := rest, status := s.err ++ 0b01#2 }

/-- R132 (a), R128: a command presented while BUSY is 1 or `rst` is asserted is not issued, has no effect
and is not remembered. -/
def Obligations.CommandNotReadyHasNoEffect : Prop :=
  ∀ (s : State) (c : Cmd) (rest : List HostEvent),
    s.host = .command c :: rest → (s.busy = true ∨ s.rst = true) →
      step s = .next { s with host := rest }

/-- Every step takes exactly the host's next action and answers a next state: nothing stops the core, and no
step is refused. With no action pending nothing changes. -/
def Obligations.EveryStepTakesOneActionAndGoesOn : Prop :=
  ∀ s : State,
    (s.host = [] → step s = .next s) ∧
    ∀ (e : HostEvent) (rest : List HostEvent), s.host = e :: rest →
      ∃ t, step s = .next t ∧ t.host = rest

/-- ALTENC on a finite altitude: ALTCODE is laid out as R48 says, from the n of R58 over the reals; on a
NaN or an infinity only STATUS changes (R61). -/
def Obligations.AltencWritesTheAltitudeCode : Prop :=
  ∀ (alt : Binary64) (sel : Bool) (s : State),
    (Reference.Finite alt → ∃ n : BitVec 12, (n.toNat : ℤ) = Reference.altQuantity (val alt) ∧
      exec (.altenc alt sel) s = .next { s with
        altcode :=
          if sel then n.extractLsb' 5 6 ++ 0#1 ++ n.extractLsb' 4 1 ++ 1#1 ++ n.extractLsb' 0 4
          else n.extractLsb' 3 9 ++ 0#4
        vAlt := true
        status := 0b0010#4 }) ∧
    (¬ Reference.Finite alt → exec (.altenc alt sel) s = .next { s with status := 0b1110#4 })

/-- R63: two altitudes 25 ft apart have an n that differs by one (mod 4096), and n[10:0] is read off each
code by removing the constant bits 4 and 6. -/
def Obligations.AltencIsMonotonicInSteps : Prop :=
  ∀ (a b : Binary64) (s : State), Reference.Finite a → Reference.Finite b → val b = val a + 25 →
    ∃ (n : BitVec 12) (t u : State), (n.toNat : ℤ) = Reference.altQuantity (val a) ∧
      ((n + 1#12).toNat : ℤ) = Reference.altQuantity (val b) ∧
      exec (.altenc a true) s = .next t ∧ exec (.altenc b true) s = .next u ∧
      t.altcode.extractLsb' 7 6 ++ t.altcode.extractLsb' 5 1 ++ t.altcode.extractLsb' 0 4 =
        n.extractLsb' 0 11 ∧
      u.altcode.extractLsb' 7 6 ++ u.altcode.extractLsb' 5 1 ++ u.altcode.extractLsb' 0 4 =
        (n + 1#12).extractLsb' 0 11 ∧
      t.altcode.getLsbD 4 = true ∧ t.altcode.getLsbD 6 = false ∧
      u.altcode.getLsbD 4 = true ∧ u.altcode.getLsbD 6 = false

/-- CPRENC on finite coordinates: the two codes are those of the formulas of R65 to R72 over the reals,
with the real cosine and arc cosine; on a NaN or an infinity only STATUS changes (R73, R121). NL at latitude 0
is the OPEN parameter (log entry 4), the evaluation is exact (log entry 6), and the number an operand word
denotes is that of log entry 9. -/
def Obligations.CprencWritesTheCodesOfTheFormulas : Prop :=
  ∀ (lat lon : Binary64) (par surface : Bool) (s : State),
    (Reference.Finite lat ∧ Reference.Finite lon → ∃ yz xz : BitVec 19,
      (yz.toNat : ℤ) = Reference.code surface (val lat) (Reference.dLat par surface) ∧
      (xz.toNat : ℤ) =
        Reference.code surface (val lon) (Reference.dLon Config.nlZero (val lat) par surface) ∧
      exec (.cprenc lat lon par surface) s =
        .next { s with cprYz := yz, cprXz := xz, vCpr := true, status := 0b0010#4 }) ∧
    (¬ (Reference.Finite lat ∧ Reference.Finite lon) →
      exec (.cprenc lat lon par surface) s = .next { s with status := 0b1110#4 })

/-- R11, R67: NL_ZERO is 59 or 60. -/
def Obligations.NlZeroIsInItsRange : Prop :=
  Config.nlZero = 59 ∨ Config.nlZero = 60

/-- R70, R73: an airborne code is below 2^17, so the 19-bit register holds it zero-extended. -/
def Obligations.AirborneCodesFitSeventeenBits : Prop :=
  ∀ (lat lon : Binary64) (par : Bool) (s : State), Reference.Finite lat → Reference.Finite lon →
    ∃ t : State, exec (.cprenc lat lon par false) s = .next t ∧
      t.cprYz.toNat < 2 ^ 17 ∧ t.cprXz.toNat < 2 ^ 17

/-- R74 (a): at and beyond 87 degrees the even and the odd longitude code are equal. -/
def Obligations.PolarLongitudeCodesAgree : Prop :=
  ∀ (lat lon : Binary64) (surface : Bool) (s : State), Reference.Finite lat → Reference.Finite lon →
    87 ≤ |val lat| →
    ∃ t u : State, exec (.cprenc lat lon false surface) s = .next t ∧
      exec (.cprenc lat lon true surface) s = .next u ∧ t.cprXz = u.cprXz

/-- R74 (c): a latitude on a zone boundary has the latitude code 0. -/
def Obligations.ZoneBoundaryHasCodeZero : Prop :=
  ∀ (lat lon : Binary64) (par surface : Bool) (k : ℤ) (s : State), Reference.Finite lat →
    Reference.Finite lon → ((val lat : ℚ) : ℝ) = k * Reference.dLat par surface →
    ∃ t : State, exec (.cprenc lat lon par surface) s = .next t ∧ t.cprYz = 0

/-- R71: with a truncating remainder in place of the floored one the code is the same. -/
def Obligations.TruncatingRemainderGivesTheSameCode : Prop :=
  ∀ (surface : Bool) (x d : ℚ), 0 < d →
    cprCode surface x d = BitVec.ofInt 19
      (⌊(Reference.scale surface : ℚ) * ((x - d * (if 0 ≤ x then ⌊x / d⌋ else ⌈x / d⌉ : ℤ)) / d) + 1 / 2⌋ %
        Reference.scale surface)

/-- CRC24: CRCREG is the remainder of M(x)·x^24 divided by the generator, over the two-element field
(R76, R79 (a), R80); there is no error outcome. -/
def Obligations.Crc24WritesThePolynomialRemainder : Prop :=
  ∀ (msg : Msg) (s : State), ∃ c : BitVec 24,
    Reference.poly c =
      (Reference.poly msg * Polynomial.X ^ 24) %ₘ Reference.poly (0x1FFF409#25) ∧
    exec (.crc24 msg) s = .next { s with crcReg := c, vCrc := true, status := 0b0010#4 }

/-- R79 (b): the shift-register form gives the same remainder. -/
def Obligations.CrcIsTheShiftRegister : Prop :=
  ∀ m : Msg, crc24 m = (Reference.shiftRegister (m ++ 0#24)).setWidth 24

/-- R79 (c): the CRC is linear over exclusive or. -/
def Obligations.CrcIsLinear : Prop :=
  (∀ a b : Msg, crc24 (a ^^^ b) = crc24 a ^^^ crc24 b) ∧ crc24 0 = 0

/-- POSFRM on finite operands: FRAME_E and FRAME_O receive, byte for byte, the even and the odd frame of
R86 and R87, each with the CRC of its own bytes; on a NaN or an infinity only STATUS changes (R88). -/
def Obligations.PosfrmWritesBothFrames : Prop :=
  ∀ (o : PosReport) (s : State),
    (Reference.FiniteReport o → ∃ e f : Frame,
      Reference.PositionFrame Config.nlZero o false e ∧ Reference.PositionFrame Config.nlZero o true f ∧
      exec (.posfrm o) s =
        .next { s with frameE := e, frameO := f, vFe := true, vFo := true, status := 0b0010#4 }) ∧
    (¬ Reference.FiniteReport o → exec (.posfrm o) s = .next { s with status := 0b1110#4 })

/-- R84: bit 12 of the altitude code is not transmitted, so an altitude 25600 ft higher gives the same
frames. -/
def Obligations.PositionAltitudeAliases : Prop :=
  ∀ (o : PosReport) (b : Binary64) (s : State), Reference.FiniteReport o → Reference.Finite b →
    val b = val o.alt + 25600 → ∃ t : State, exec (.posfrm o) s = .next t ∧
      exec (.posfrm { o with alt := b }) s = .next t

/-- R45, R46: the frames POSFRM writes are data of the format FMT_DF17_POSITION and carry its operands. -/
def Obligations.PosfrmFramesAreOfTheFormat : Prop :=
  ∀ (o : PosReport) (s : State), Reference.FiniteReport o → ∃ (t : State) (f g : PositionFields),
    exec (.posfrm o) s = .next t ∧
    decode (.position t.frameE) = .ok (.fmtDf17Position f) ∧
    decode (.position t.frameO) = .ok (.fmtDf17Position g) ∧
    f.flag = 0 ∧ g.flag = 1 ∧ f.alt12 = g.alt12 ∧
    (f.ca, f.icao, f.tc, f.ss, f.nicsb, f.tbit) = (o.ca, o.icao, o.tc, o.ss, o.nicsb, o.tbit) ∧
    (g.ca, g.icao, g.tc, g.ss, g.nicsb, g.tbit) = (o.ca, o.icao, o.tc, o.ss, o.nicsb, o.tbit)

/-- IDFRM: FRAME_E receives, byte for byte, the frame of R93 to R95, DIAG the mask of the replaced
characters, and V_FO is cleared (R22, R96); there is no error outcome. That the bits of FRAME_O are left as
they were is the model's choice (log entry 13): the spec says that FRAME_O then holds no value. -/
def Obligations.IdfrmWritesTheFrameAndTheMask : Prop :=
  ∀ (o : IdReport) (s : State), ∃ (f : Frame) (d : BitVec 8),
    Reference.HeaderBytes o.ca o.icao f ∧ Reference.IdentBytes Config.ec o.name f ∧
    Reference.CrcBytes f ∧
    (∀ i < 8, d.getLsbD i = (Reference.charRow (byteAt o.name i).toNat).2) ∧
    exec (.idfrm o) s = .next { s with
      frameE := f, diag := d, vFe := true, vDiag := true, vFo := false, status := 0b0010#4 }

/-- R47, R97 (e): the frame IDFRM writes is a datum of the format FMT_DF17_IDENT, and when no character
was replaced each field decodes back to its character, but for the case of letters. -/
def Obligations.IdfrmNameDecodesBack : Prop :=
  ∀ (o : IdReport) (s : State), ∃ (t : State) (f : IdentFields), exec (.idfrm o) s = .next t ∧
    decode (.ident t.frameE) = .ok (.fmtDf17Ident f) ∧ f.ca = o.ca ∧ f.icao = o.icao ∧
    f.ec = Config.ec ∧
    (t.diag = 0 → ∀ i < 8,
      let code := ([f.char0, f.char1, f.char2, f.char3, f.char4, f.char5, f.char6, f.char7].getD i 0).toNat
      let ch := (byteAt o.name i).toNat
      (if code = 32 then 0x5F else if code ≤ 26 then code + 0x40 else code) =
        if 0x61 ≤ ch ∧ ch ≤ 0x7A then ch - 0x20 else ch)

/-- R98: every frame the assembler produces carries the CRC of its first 11 bytes, leaves the shift
register at 0, and has byte 0 = 0x88 | ca. -/
def Obligations.ProducedFramesCarryTheirCrc : Prop :=
  (∀ (o : PosReport) (s : State), Reference.FiniteReport o → ∃ t : State, exec (.posfrm o) s = .next t ∧
    ∀ f ∈ [t.frameE, t.frameO], Reference.CrcBytes f ∧
      (Reference.shiftRegister f).setWidth 24 = 0#24 ∧ byteAt f 0 = 0x88#8 ||| o.ca.setWidth 8) ∧
  ∀ (o : IdReport) (s : State), ∃ t : State, exec (.idfrm o) s = .next t ∧ Reference.CrcBytes t.frameE ∧
    (Reference.shiftRegister t.frameE).setWidth 24 = 0#24 ∧
    byteAt t.frameE 0 = 0x88#8 ||| o.ca.setWidth 8

/-- PPMMOD: MODBUF has the layout of R33 and R102, each frame byte modulated as R99 says; there is no
error outcome, and the frames are not checked (R104). -/
def Obligations.PpmmodWritesTheLayout : Prop :=
  ∀ (even : Frame) (odd : Option Frame) (s : State), ∃ b : ModBuf, Reference.BufferLayout even odd b ∧
    exec (.ppmmod even odd) s = .next { s with modBuf := b, vMod := true, status := 0b0010#4 }

/-- R49, R100 (a), (b): bit k of a frame appears in MODBUF as the pair (b, 1 - b). -/
def Obligations.FrameBitsAppearAsPairs : Prop :=
  ∀ (even odd : Frame) (s : State), ∃ t : State, exec (.ppmmod even (some odd)) s = .next t ∧ ∀ k < 112,
    t.modBuf.getMsbD (400 + 2 * k) = even.getMsbD k ∧ t.modBuf.getMsbD (401 + 2 * k) = !even.getMsbD k ∧
    t.modBuf.getMsbD (1440 + 2 * k) = odd.getMsbD k ∧ t.modBuf.getMsbD (1441 + 2 * k) = !odd.getMsbD k

/-- R100 (c), (d): every output byte of the modulator has four ones and is no pause or preamble byte. -/
def Obligations.ModulatedBytesAreBalanced : Prop :=
  ∀ x : Byte, ∀ y ∈ [byteAt (modByte x) 0, byteAt (modByte x) 1],
    Reference.ones y = 4 ∧ y ≠ 0x00#8 ∧ y ≠ 0xA1#8 ∧ y ≠ 0x40#8

/-- R105: the preamble has 4 one bits, a MODBUF made from one frame 116, from two frames 232; the first one
bit is bit 384; a conversion of 256 bytes gives twice as many words equal to the maximum as the buffer has
one bits, provided the amplitudes differ. -/
def Obligations.ModbufCountsOfOneBits : Prop :=
  Reference.ones (0xA140#16) = 4 ∧
  (∀ (even : Frame) (odd : Option Frame) (s : State), ∃ t : State,
    exec (.ppmmod even odd) s = .next t ∧
    Reference.ones t.modBuf = (if odd.isSome then 232 else 116) ∧
    t.modBuf.getMsbD 384 = true ∧ ∀ k < 384, t.modBuf.getMsbD k = false) ∧
  ∀ (b : ModBuf) (lo hi : Sample) (s : State), lo ≠ hi → ∃ t : State,
    exec (.iqconv b 256#9 lo hi) s = .next t ∧
    Reference.countWords t.sampBuf hi = 2 * Reference.ones b

/-- IQCONV with a length of 0 to 256: the first 16·len words of SAMPBUF and SLEN as R107 says, and nothing
said of the words above, which hold no value (log entry 8); with a longer one only STATUS changes (R108,
R120). -/
def Obligations.IqconvWritesTheSamples : Prop :=
  ∀ (mbuf : ModBuf) (len : BitVec 9) (lo hi : Sample) (s : State),
    (len.toNat ≤ 256 → ∃ words : SampBuf, Reference.SampleWords mbuf len.toNat lo hi words ∧
      exec (.iqconv mbuf len lo hi) s = .next { s with
        sampBuf := words, slen := BitVec.ofNat 13 (16 * len.toNat), vSamp := true, status := 0b0010#4 }) ∧
    (256 < len.toNat → exec (.iqconv mbuf len lo hi) s = .next { s with status := 0b1010#4 })

/-- R109: a conversion gives 16 words for each byte, each the maximum where its bit is 1 and the minimum
where it is 0, I and Q equal; it can be undone when the amplitudes differ. -/
def Obligations.SamplesDetermineTheBits : Prop :=
  ∀ (mbuf : ModBuf) (len : BitVec 9) (lo hi : Sample) (s : State), len.toNat ≤ 256 →
    ∃ t : State, exec (.iqconv mbuf len lo hi) s = .next t ∧ t.slen.toNat = len.toNat * 8 * 2 ∧
      ∀ k < 8 * len.toNat,
        wordAt t.sampBuf (2 * k) = (if mbuf.getMsbD k then hi else lo) ∧
        wordAt t.sampBuf (2 * k + 1) = wordAt t.sampBuf (2 * k) ∧
        (lo ≠ hi → (mbuf.getMsbD k = true ↔ wordAt t.sampBuf (2 * k) = hi))

/-- POSIQ on finite operands: SAMPBUF holds the samples of the whole buffer that the layout of R33 gives
the two frames of R86; FRAME_E, FRAME_O and MODBUF are as before. On a NaN or an infinity only STATUS
changes (R111). -/
def Obligations.PosiqWritesTheSamplesOfBothFrames : Prop :=
  ∀ (o : PosReport) (lo hi : Sample) (s : State),
    (Reference.FiniteReport o → ∃ (e f : Frame) (b : ModBuf) (words : SampBuf),
      Reference.PositionFrame Config.nlZero o false e ∧ Reference.PositionFrame Config.nlZero o true f ∧
      Reference.BufferLayout e (some f) b ∧ Reference.SampleWords b 256 lo hi words ∧
      exec (.posiq o lo hi) s =
        .next { s with sampBuf := words, slen := 4096#13, vSamp := true, status := 0b0010#4 }) ∧
    (¬ Reference.FiniteReport o → exec (.posiq o lo hi) s = .next { s with status := 0b1110#4 })

/-- IDIQ: SAMPBUF holds the samples of the buffer of the one frame of R94, DIAG the mask; FRAME_E, V_FO
and MODBUF are as before, and words 1248 to 4095 are the minimum (R112). -/
def Obligations.IdiqWritesTheSamplesOfTheFrame : Prop :=
  ∀ (o : IdReport) (lo hi : Sample) (s : State),
    ∃ (f : Frame) (d : BitVec 8) (b : ModBuf) (words : SampBuf),
      Reference.HeaderBytes o.ca o.icao f ∧ Reference.IdentBytes Config.ec o.name f ∧
      Reference.CrcBytes f ∧
      (∀ i < 8, d.getLsbD i = (Reference.charRow (byteAt o.name i).toNat).2) ∧
      Reference.BufferLayout f none b ∧ Reference.SampleWords b 256 lo hi words ∧
      (∀ k, 1248 ≤ k → k < 4096 → wordAt words k = lo) ∧
      exec (.idiq o lo hi) s = .next { s with
        sampBuf := words, slen := 4096#13, vSamp := true, diag := d, vDiag := true
        status := 0b0010#4 }

/-- R111: POSIQ leaves in SAMPBUF and SLEN what POSFRM, PPMMOD and IQCONV leave there when the host
carries each result to the next command. -/
def Obligations.PosiqEqualsTheSequence : Prop :=
  ∀ (o : PosReport) (lo hi : Sample) (s : State), Reference.FiniteReport o →
    ∃ s1 s2 s3 t : State, exec (.posfrm o) s = .next s1 ∧
      exec (.ppmmod s1.frameE (some s1.frameO)) s1 = .next s2 ∧
      exec (.iqconv s2.modBuf 256#9 lo hi) s2 = .next s3 ∧ exec (.posiq o lo hi) s = .next t ∧
      t.sampBuf = s3.sampBuf ∧ t.slen = s3.slen ∧ t.vSamp = s3.vSamp

/-- R105, R111, R112: with two different amplitudes POSIQ gives 464 words equal to the maximum and IDIQ
gives 232. -/
def Obligations.CompositesCountOfMaximumWords : Prop :=
  ∀ (lo hi : Sample) (s : State), lo ≠ hi →
    (∀ o : PosReport, Reference.FiniteReport o → ∃ t : State, exec (.posiq o lo hi) s = .next t ∧
      Reference.countWords t.sampBuf hi = 464) ∧
    ∀ o : IdReport, ∃ t : State, exec (.idiq o lo hi) s = .next t ∧
      Reference.countWords t.sampBuf hi = 232

/-- R119: the seven unassigned rows complete with E_ILLOP and change nothing but STATUS, and so does every
command whose operation code is not one of 0x1 to 0x9, whatever its ports carry. -/
def Obligations.ReservedRowsEndInIllop : Prop :=
  ∀ s : State,
    (∀ i ∈ [Instr.reserved0, .reservedA, .reservedB, .reservedC, .reservedD, .reservedE, .reservedF],
      exec i s = .next { s with status := 0b0110#4 }) ∧
    ∀ c : Cmd, ¬ (1 ≤ c.op.toNat ∧ c.op.toNat ≤ 9) →
      exec (decodeCmd c) s = .next { s with status := 0b0110#4 }

/-- A step that takes a command whose operation code is not one of 0x1 to 0x9 completes with ERR = 1 and
writes no register (R119, R130). -/
def Obligations.UnassignedCodeWritesNothing : Prop :=
  ∀ (s : State) (c : Cmd) (rest : List HostEvent),
    s.host = .command c :: rest → s.busy = false → s.rst = false →
    ¬ (1 ≤ c.op.toNat ∧ c.op.toNat ≤ 9) → step s = .next { s with host := rest, status := 0b0110#4 }

/-- The six rows that are data formats are no commands: executing one is refused by name, and the decoder
of commands never yields one (R51, R54; log entry 2). -/
def Obligations.DataFormatsAreNoCommands : Prop :=
  ∀ (s : State) (f : PositionFields) (g : IdentFields) (n : BitVec 11) (m : BitVec 9) (b c : Bool)
    (x y : Sample), ∀ i ∈ [Instr.fmtDf17Position f, .fmtDf17Ident g, .fmtAltcode25ft n,
      .fmtAltcode100ft m, .fmtSymbol b c, .fmtSamplePair x y],
    exec i s = .refused .dataFormat ∧ ∀ cmd : Cmd, decodeCmd cmd ≠ i

/-- R117: an error outcome changes STATUS alone, leaves BUSY 0 and DONE 1, and the next command runs as if
the failed one had never been issued. -/
def Obligations.ErrorOutcomeChangesStatusAlone : Prop :=
  ∀ (i : Instr) (s t : State), exec i s = .next t → t.err ≠ 0#2 →
    t = { s with status := t.status } ∧ t.busy = false ∧ t.done = true ∧ ∀ j : Instr, exec j t = exec j s

/-- R23: no operation reads a register: from any two states an operation ends the same way, and each
register it leaves different from both was given the same value in both, SAMPBUF in the words that hold a
value, those below SLEN (R24). -/
def Obligations.OperationsReadNoState : Prop :=
  ∀ (i : Instr) (s u t : State), exec i s = .next t → ∃ v : State, exec i u = .next v ∧
    t.status = v.status ∧
    (t.altcode = v.altcode ∧ t.vAlt = v.vAlt ∨
      (t.altcode, t.vAlt) = (s.altcode, s.vAlt) ∧ (v.altcode, v.vAlt) = (u.altcode, u.vAlt)) ∧
    (t.cprYz = v.cprYz ∧ t.cprXz = v.cprXz ∧ t.vCpr = v.vCpr ∨
      (t.cprYz, t.cprXz, t.vCpr) = (s.cprYz, s.cprXz, s.vCpr) ∧
        (v.cprYz, v.cprXz, v.vCpr) = (u.cprYz, u.cprXz, u.vCpr)) ∧
    (t.crcReg = v.crcReg ∧ t.vCrc = v.vCrc ∨
      (t.crcReg, t.vCrc) = (s.crcReg, s.vCrc) ∧ (v.crcReg, v.vCrc) = (u.crcReg, u.vCrc)) ∧
    (t.frameE = v.frameE ∧ t.vFe = v.vFe ∨
      (t.frameE, t.vFe) = (s.frameE, s.vFe) ∧ (v.frameE, v.vFe) = (u.frameE, u.vFe)) ∧
    (t.frameO = v.frameO ∨ t.frameO = s.frameO ∧ v.frameO = u.frameO) ∧
    (t.vFo = v.vFo ∨ t.vFo = s.vFo ∧ v.vFo = u.vFo) ∧
    (t.modBuf = v.modBuf ∧ t.vMod = v.vMod ∨
      (t.modBuf, t.vMod) = (s.modBuf, s.vMod) ∧ (v.modBuf, v.vMod) = (u.modBuf, u.vMod)) ∧
    ((∀ i < t.slen.toNat, wordAt t.sampBuf i = wordAt v.sampBuf i) ∧ t.slen = v.slen ∧
        t.vSamp = v.vSamp ∨
      (t.sampBuf, t.slen, t.vSamp) = (s.sampBuf, s.slen, s.vSamp) ∧
        (v.sampBuf, v.slen, v.vSamp) = (u.sampBuf, u.slen, u.vSamp)) ∧
    (t.diag = v.diag ∧ t.vDiag = v.vDiag ∨
      (t.diag, t.vDiag) = (s.diag, s.vDiag) ∧ (v.diag, v.vDiag) = (u.diag, u.vDiag))

/-- R40: every operation is idempotent. -/
def Obligations.OperationsAreIdempotent : Prop :=
  ∀ (i : Instr) (s t : State), exec i s = .next t → exec i t = .next t

/-- R24: a valid bit that is 1 stays 1 except by reset or, for V_FO, by IDFRM. -/
def Obligations.ValidBitsFallOnlyByResetOrIdfrm : Prop :=
  ∀ s t : State, step s = .next t → (∀ level rest, s.host ≠ .rst level :: rest) →
    (s.vAlt → t.vAlt) ∧ (s.vCpr → t.vCpr) ∧ (s.vCrc → t.vCrc) ∧ (s.vFe → t.vFe) ∧ (s.vMod → t.vMod) ∧
    (s.vSamp → t.vSamp) ∧ (s.vDiag → t.vDiag) ∧
    (s.vFo → t.vFo ∨ ∃ c rest o, s.host = .command c :: rest ∧ decodeCmd c = .idfrm o)

/-- R40, R43: STATUS is readable at any time, and a host read of it changes nothing of the core. -/
def Obligations.StatusIsAlwaysReadable : Prop :=
  ∀ (s : State) (rest : List HostEvent), s.host = .read .status :: rest →
    step s = .next { s with host := rest, readData := some (.value (.bits4 s.status)) }

/-- R40, R43: a host read of a valid register returns the element at its full width and changes nothing of
the core. -/
def Obligations.ValidRegisterReadsReturnTheElement : Prop :=
  ∀ (s : State) (rest : List HostEvent) (r : ReadPort) (v : ReadValue), s.host = .read r :: rest →
    s.busy = false →
    (match r with
      | .status => False
      | .altcode => s.vAlt = true ∧ v = .bits13 s.altcode
      | .cprYz => s.vCpr = true ∧ v = .bits19 s.cprYz
      | .cprXz => s.vCpr = true ∧ v = .bits19 s.cprXz
      | .crcReg => s.vCrc = true ∧ v = .bits24 s.crcReg
      | .frameE i => s.vFe = true ∧ v = .bits8 (s.frameE.extractLsb' (104 - 8 * i.val) 8)
      | .frameO i => s.vFo = true ∧ v = .bits8 (s.frameO.extractLsb' (104 - 8 * i.val) 8)
      | .modBuf i => s.vMod = true ∧ v = .bits8 (s.modBuf.extractLsb' (2040 - 8 * i.val) 8)
      | .sampBuf i => s.vSamp = true ∧ i.val < s.slen.toNat ∧
          v = .bits16 (s.sampBuf.extractLsb' (65520 - 16 * i.val) 16)
      | .slen => s.vSamp = true ∧ v = .bits13 s.slen
      | .diag => s.vDiag = true ∧ v = .bits8 s.diag) →
    step s = .next { s with host := rest, readData := some (.value v) }

/-- R24, R40, R133: a read of a register whose valid bit is 0, or of a word of SAMPBUF at index SLEN or above,
returns no value: it is a fault of the host program, and it changes nothing of the core, which goes on (log
entry 18). -/
def Obligations.ReadsWithoutAValueFault : Prop :=
  ∀ (s : State) (rest : List HostEvent) (r : ReadPort), s.host = .read r :: rest → s.busy = false →
    (match r with
      | .status => False
      | .altcode => s.vAlt = false
      | .cprYz => s.vCpr = false
      | .cprXz => s.vCpr = false
      | .crcReg => s.vCrc = false
      | .frameE _ => s.vFe = false
      | .frameO _ => s.vFo = false
      | .modBuf _ => s.vMod = false
      | .sampBuf i => s.vSamp = false ∨ s.slen.toNat ≤ i.val
      | .slen => s.vSamp = false
      | .diag => s.vDiag = false) →
    ∃ f : ReadFault, (f = .readInvalid r ∨ ∃ i, r = .sampBuf i ∧ f = .readPastSlen i) ∧
      step s = .next { s with host := rest, readData := some (.fault f) }

/-- R40, R132 (b): while BUSY is 1 a read of a result register returns no value and changes nothing of the
core. -/
def Obligations.ReadsWhileBusyFault : Prop :=
  ∀ (s : State) (rest : List HostEvent) (r : ReadPort), s.host = .read r :: rest → s.busy = true →
    r ≠ .status → step s = .next { s with host := rest, readData := some (.fault (.readBusy r)) }

/-- R133: FRAME_O cannot be read after an identification report, whatever was written there before. -/
def Obligations.FrameOHasNoValueAfterIdfrm : Prop :=
  ∀ (s : State) (c : Cmd) (i : Fin 14) (rest : List HostEvent),
    s.host = .command c :: .read (.frameO i) :: rest → s.busy = false → s.rst = false → c.op = 0x5 →
    ∃ t, step s = .next t ∧ step t = .next { t with
      host := rest, readData := some (.fault (.readInvalid (.frameO i))) }

/-- R128: asserting `rst` and releasing it again leaves the state of R30, from every state. -/
def Obligations.ResetPulseLeavesTheResetState : Prop :=
  ∀ (s : State) (rest : List HostEvent), s.host = .rst true :: .rst false :: rest →
    ∃ t, step s = .next t ∧ t.cmdReady = false ∧
      step t = .next { State.reset with host := rest, readData := s.readData }

/-- The invariant holds at reset. -/
def Obligations.InvariantHoldsAtReset : Prop :=
  State.reset.Inv

/-- Every step keeps the invariant: BUSY is 0 between steps; a valid frame begins with DF 17 and carries
its CRC (R32); FRAME_O is valid only beside the even frame of its report (R22, R83); a valid MODBUF has its
pauses and its first preamble (R33); a valid SAMPBUF has SLEN at most 4096 and I equal to Q below it (R34). -/
def Obligations.EveryStepKeepsTheInvariant : Prop :=
  ∀ s t : State, s.Inv → step s = .next t → t.Inv
end

