-- ==== Sys2Proof/Laws/State.lean ====
section
/-! SUPPORT. The small lemmas of State: what each named update does to each field, so that no later proof
unfolds an update. All are true by rfl. -/

namespace Sys2Proof.Machine

@[simp] theorem State.writeAltcode_altcode (s : State) (code : BitVec 13) : (s.writeAltcode code).altcode = code := rfl
@[simp] theorem State.writeAltcode_cprYz (s : State) (code : BitVec 13) : (s.writeAltcode code).cprYz = s.cprYz := rfl
@[simp] theorem State.writeAltcode_cprXz (s : State) (code : BitVec 13) : (s.writeAltcode code).cprXz = s.cprXz := rfl
@[simp] theorem State.writeAltcode_crcReg (s : State) (code : BitVec 13) : (s.writeAltcode code).crcReg = s.crcReg := rfl
@[simp] theorem State.writeAltcode_frameE (s : State) (code : BitVec 13) : (s.writeAltcode code).frameE = s.frameE := rfl
@[simp] theorem State.writeAltcode_frameO (s : State) (code : BitVec 13) : (s.writeAltcode code).frameO = s.frameO := rfl
@[simp] theorem State.writeAltcode_modBuf (s : State) (code : BitVec 13) : (s.writeAltcode code).modBuf = s.modBuf := rfl
@[simp] theorem State.writeAltcode_sampBuf (s : State) (code : BitVec 13) : (s.writeAltcode code).sampBuf = s.sampBuf := rfl
@[simp] theorem State.writeAltcode_slen (s : State) (code : BitVec 13) : (s.writeAltcode code).slen = s.slen := rfl
@[simp] theorem State.writeAltcode_diag (s : State) (code : BitVec 13) : (s.writeAltcode code).diag = s.diag := rfl
@[simp] theorem State.writeAltcode_vAlt (s : State) (code : BitVec 13) : (s.writeAltcode code).vAlt = true := rfl
@[simp] theorem State.writeAltcode_vCpr (s : State) (code : BitVec 13) : (s.writeAltcode code).vCpr = s.vCpr := rfl
@[simp] theorem State.writeAltcode_vCrc (s : State) (code : BitVec 13) : (s.writeAltcode code).vCrc = s.vCrc := rfl
@[simp] theorem State.writeAltcode_vFe (s : State) (code : BitVec 13) : (s.writeAltcode code).vFe = s.vFe := rfl
@[simp] theorem State.writeAltcode_vFo (s : State) (code : BitVec 13) : (s.writeAltcode code).vFo = s.vFo := rfl
@[simp] theorem State.writeAltcode_vMod (s : State) (code : BitVec 13) : (s.writeAltcode code).vMod = s.vMod := rfl
@[simp] theorem State.writeAltcode_vSamp (s : State) (code : BitVec 13) : (s.writeAltcode code).vSamp = s.vSamp := rfl
@[simp] theorem State.writeAltcode_vDiag (s : State) (code : BitVec 13) : (s.writeAltcode code).vDiag = s.vDiag := rfl
@[simp] theorem State.writeAltcode_status (s : State) (code : BitVec 13) : (s.writeAltcode code).status = s.status := rfl
@[simp] theorem State.writeAltcode_rst (s : State) (code : BitVec 13) : (s.writeAltcode code).rst = s.rst := rfl
@[simp] theorem State.writeAltcode_host (s : State) (code : BitVec 13) : (s.writeAltcode code).host = s.host := rfl
@[simp] theorem State.writeAltcode_readData (s : State) (code : BitVec 13) : (s.writeAltcode code).readData = s.readData := rfl
@[simp] theorem State.writeAltcode_busy (s : State) (code : BitVec 13) : (s.writeAltcode code).busy = s.busy := rfl
@[simp] theorem State.writeAltcode_done (s : State) (code : BitVec 13) : (s.writeAltcode code).done = s.done := rfl
@[simp] theorem State.writeAltcode_err (s : State) (code : BitVec 13) : (s.writeAltcode code).err = s.err := rfl
@[simp] theorem State.writeAltcode_cmdReady (s : State) (code : BitVec 13) : (s.writeAltcode code).cmdReady = s.cmdReady := rfl

@[simp] theorem State.writeCpr_altcode (s : State) (yz xz : BitVec 19) : (s.writeCpr yz xz).altcode = s.altcode := rfl
@[simp] theorem State.writeCpr_cprYz (s : State) (yz xz : BitVec 19) : (s.writeCpr yz xz).cprYz = yz := rfl
@[simp] theorem State.writeCpr_cprXz (s : State) (yz xz : BitVec 19) : (s.writeCpr yz xz).cprXz = xz := rfl
@[simp] theorem State.writeCpr_crcReg (s : State) (yz xz : BitVec 19) : (s.writeCpr yz xz).crcReg = s.crcReg := rfl
@[simp] theorem State.writeCpr_frameE (s : State) (yz xz : BitVec 19) : (s.writeCpr yz xz).frameE = s.frameE := rfl
@[simp] theorem State.writeCpr_frameO (s : State) (yz xz : BitVec 19) : (s.writeCpr yz xz).frameO = s.frameO := rfl
@[simp] theorem State.writeCpr_modBuf (s : State) (yz xz : BitVec 19) : (s.writeCpr yz xz).modBuf = s.modBuf := rfl
@[simp] theorem State.writeCpr_sampBuf (s : State) (yz xz : BitVec 19) : (s.writeCpr yz xz).sampBuf = s.sampBuf := rfl
@[simp] theorem State.writeCpr_slen (s : State) (yz xz : BitVec 19) : (s.writeCpr yz xz).slen = s.slen := rfl
@[simp] theorem State.writeCpr_diag (s : State) (yz xz : BitVec 19) : (s.writeCpr yz xz).diag = s.diag := rfl
@[simp] theorem State.writeCpr_vAlt (s : State) (yz xz : BitVec 19) : (s.writeCpr yz xz).vAlt = s.vAlt := rfl
@[simp] theorem State.writeCpr_vCpr (s : State) (yz xz : BitVec 19) : (s.writeCpr yz xz).vCpr = true := rfl
@[simp] theorem State.writeCpr_vCrc (s : State) (yz xz : BitVec 19) : (s.writeCpr yz xz).vCrc = s.vCrc := rfl
@[simp] theorem State.writeCpr_vFe (s : State) (yz xz : BitVec 19) : (s.writeCpr yz xz).vFe = s.vFe := rfl
@[simp] theorem State.writeCpr_vFo (s : State) (yz xz : BitVec 19) : (s.writeCpr yz xz).vFo = s.vFo := rfl
@[simp] theorem State.writeCpr_vMod (s : State) (yz xz : BitVec 19) : (s.writeCpr yz xz).vMod = s.vMod := rfl
@[simp] theorem State.writeCpr_vSamp (s : State) (yz xz : BitVec 19) : (s.writeCpr yz xz).vSamp = s.vSamp := rfl
@[simp] theorem State.writeCpr_vDiag (s : State) (yz xz : BitVec 19) : (s.writeCpr yz xz).vDiag = s.vDiag := rfl
@[simp] theorem State.writeCpr_status (s : State) (yz xz : BitVec 19) : (s.writeCpr yz xz).status = s.status := rfl
@[simp] theorem State.writeCpr_rst (s : State) (yz xz : BitVec 19) : (s.writeCpr yz xz).rst = s.rst := rfl
@[simp] theorem State.writeCpr_host (s : State) (yz xz : BitVec 19) : (s.writeCpr yz xz).host = s.host := rfl
@[simp] theorem State.writeCpr_readData (s : State) (yz xz : BitVec 19) : (s.writeCpr yz xz).readData = s.readData := rfl
@[simp] theorem State.writeCpr_busy (s : State) (yz xz : BitVec 19) : (s.writeCpr yz xz).busy = s.busy := rfl
@[simp] theorem State.writeCpr_done (s : State) (yz xz : BitVec 19) : (s.writeCpr yz xz).done = s.done := rfl
@[simp] theorem State.writeCpr_err (s : State) (yz xz : BitVec 19) : (s.writeCpr yz xz).err = s.err := rfl
@[simp] theorem State.writeCpr_cmdReady (s : State) (yz xz : BitVec 19) : (s.writeCpr yz xz).cmdReady = s.cmdReady := rfl

@[simp] theorem State.writeCrc_altcode (s : State) (crc : BitVec 24) : (s.writeCrc crc).altcode = s.altcode := rfl
@[simp] theorem State.writeCrc_cprYz (s : State) (crc : BitVec 24) : (s.writeCrc crc).cprYz = s.cprYz := rfl
@[simp] theorem State.writeCrc_cprXz (s : State) (crc : BitVec 24) : (s.writeCrc crc).cprXz = s.cprXz := rfl
@[simp] theorem State.writeCrc_crcReg (s : State) (crc : BitVec 24) : (s.writeCrc crc).crcReg = crc := rfl
@[simp] theorem State.writeCrc_frameE (s : State) (crc : BitVec 24) : (s.writeCrc crc).frameE = s.frameE := rfl
@[simp] theorem State.writeCrc_frameO (s : State) (crc : BitVec 24) : (s.writeCrc crc).frameO = s.frameO := rfl
@[simp] theorem State.writeCrc_modBuf (s : State) (crc : BitVec 24) : (s.writeCrc crc).modBuf = s.modBuf := rfl
@[simp] theorem State.writeCrc_sampBuf (s : State) (crc : BitVec 24) : (s.writeCrc crc).sampBuf = s.sampBuf := rfl
@[simp] theorem State.writeCrc_slen (s : State) (crc : BitVec 24) : (s.writeCrc crc).slen = s.slen := rfl
@[simp] theorem State.writeCrc_diag (s : State) (crc : BitVec 24) : (s.writeCrc crc).diag = s.diag := rfl
@[simp] theorem State.writeCrc_vAlt (s : State) (crc : BitVec 24) : (s.writeCrc crc).vAlt = s.vAlt := rfl
@[simp] theorem State.writeCrc_vCpr (s : State) (crc : BitVec 24) : (s.writeCrc crc).vCpr = s.vCpr := rfl
@[simp] theorem State.writeCrc_vCrc (s : State) (crc : BitVec 24) : (s.writeCrc crc).vCrc = true := rfl
@[simp] theorem State.writeCrc_vFe (s : State) (crc : BitVec 24) : (s.writeCrc crc).vFe = s.vFe := rfl
@[simp] theorem State.writeCrc_vFo (s : State) (crc : BitVec 24) : (s.writeCrc crc).vFo = s.vFo := rfl
@[simp] theorem State.writeCrc_vMod (s : State) (crc : BitVec 24) : (s.writeCrc crc).vMod = s.vMod := rfl
@[simp] theorem State.writeCrc_vSamp (s : State) (crc : BitVec 24) : (s.writeCrc crc).vSamp = s.vSamp := rfl
@[simp] theorem State.writeCrc_vDiag (s : State) (crc : BitVec 24) : (s.writeCrc crc).vDiag = s.vDiag := rfl
@[simp] theorem State.writeCrc_status (s : State) (crc : BitVec 24) : (s.writeCrc crc).status = s.status := rfl
@[simp] theorem State.writeCrc_rst (s : State) (crc : BitVec 24) : (s.writeCrc crc).rst = s.rst := rfl
@[simp] theorem State.writeCrc_host (s : State) (crc : BitVec 24) : (s.writeCrc crc).host = s.host := rfl
@[simp] theorem State.writeCrc_readData (s : State) (crc : BitVec 24) : (s.writeCrc crc).readData = s.readData := rfl
@[simp] theorem State.writeCrc_busy (s : State) (crc : BitVec 24) : (s.writeCrc crc).busy = s.busy := rfl
@[simp] theorem State.writeCrc_done (s : State) (crc : BitVec 24) : (s.writeCrc crc).done = s.done := rfl
@[simp] theorem State.writeCrc_err (s : State) (crc : BitVec 24) : (s.writeCrc crc).err = s.err := rfl
@[simp] theorem State.writeCrc_cmdReady (s : State) (crc : BitVec 24) : (s.writeCrc crc).cmdReady = s.cmdReady := rfl

@[simp] theorem State.writeFrames_altcode (s : State) (even odd : Frame) : (s.writeFrames even odd).altcode = s.altcode := rfl
@[simp] theorem State.writeFrames_cprYz (s : State) (even odd : Frame) : (s.writeFrames even odd).cprYz = s.cprYz := rfl
@[simp] theorem State.writeFrames_cprXz (s : State) (even odd : Frame) : (s.writeFrames even odd).cprXz = s.cprXz := rfl
@[simp] theorem State.writeFrames_crcReg (s : State) (even odd : Frame) : (s.writeFrames even odd).crcReg = s.crcReg := rfl
@[simp] theorem State.writeFrames_frameE (s : State) (even odd : Frame) : (s.writeFrames even odd).frameE = even := rfl
@[simp] theorem State.writeFrames_frameO (s : State) (even odd : Frame) : (s.writeFrames even odd).frameO = odd := rfl
@[simp] theorem State.writeFrames_modBuf (s : State) (even odd : Frame) : (s.writeFrames even odd).modBuf = s.modBuf := rfl
@[simp] theorem State.writeFrames_sampBuf (s : State) (even odd : Frame) : (s.writeFrames even odd).sampBuf = s.sampBuf := rfl
@[simp] theorem State.writeFrames_slen (s : State) (even odd : Frame) : (s.writeFrames even odd).slen = s.slen := rfl
@[simp] theorem State.writeFrames_diag (s : State) (even odd : Frame) : (s.writeFrames even odd).diag = s.diag := rfl
@[simp] theorem State.writeFrames_vAlt (s : State) (even odd : Frame) : (s.writeFrames even odd).vAlt = s.vAlt := rfl
@[simp] theorem State.writeFrames_vCpr (s : State) (even odd : Frame) : (s.writeFrames even odd).vCpr = s.vCpr := rfl
@[simp] theorem State.writeFrames_vCrc (s : State) (even odd : Frame) : (s.writeFrames even odd).vCrc = s.vCrc := rfl
@[simp] theorem State.writeFrames_vFe (s : State) (even odd : Frame) : (s.writeFrames even odd).vFe = true := rfl
@[simp] theorem State.writeFrames_vFo (s : State) (even odd : Frame) : (s.writeFrames even odd).vFo = true := rfl
@[simp] theorem State.writeFrames_vMod (s : State) (even odd : Frame) : (s.writeFrames even odd).vMod = s.vMod := rfl
@[simp] theorem State.writeFrames_vSamp (s : State) (even odd : Frame) : (s.writeFrames even odd).vSamp = s.vSamp := rfl
@[simp] theorem State.writeFrames_vDiag (s : State) (even odd : Frame) : (s.writeFrames even odd).vDiag = s.vDiag := rfl
@[simp] theorem State.writeFrames_status (s : State) (even odd : Frame) : (s.writeFrames even odd).status = s.status := rfl
@[simp] theorem State.writeFrames_rst (s : State) (even odd : Frame) : (s.writeFrames even odd).rst = s.rst := rfl
@[simp] theorem State.writeFrames_host (s : State) (even odd : Frame) : (s.writeFrames even odd).host = s.host := rfl
@[simp] theorem State.writeFrames_readData (s : State) (even odd : Frame) : (s.writeFrames even odd).readData = s.readData := rfl
@[simp] theorem State.writeFrames_busy (s : State) (even odd : Frame) : (s.writeFrames even odd).busy = s.busy := rfl
@[simp] theorem State.writeFrames_done (s : State) (even odd : Frame) : (s.writeFrames even odd).done = s.done := rfl
@[simp] theorem State.writeFrames_err (s : State) (even odd : Frame) : (s.writeFrames even odd).err = s.err := rfl
@[simp] theorem State.writeFrames_cmdReady (s : State) (even odd : Frame) : (s.writeFrames even odd).cmdReady = s.cmdReady := rfl

@[simp] theorem State.writeIdent_altcode (s : State) (frame : Frame) : (s.writeIdent frame).altcode = s.altcode := rfl
@[simp] theorem State.writeIdent_cprYz (s : State) (frame : Frame) : (s.writeIdent frame).cprYz = s.cprYz := rfl
@[simp] theorem State.writeIdent_cprXz (s : State) (frame : Frame) : (s.writeIdent frame).cprXz = s.cprXz := rfl
@[simp] theorem State.writeIdent_crcReg (s : State) (frame : Frame) : (s.writeIdent frame).crcReg = s.crcReg := rfl
@[simp] theorem State.writeIdent_frameE (s : State) (frame : Frame) : (s.writeIdent frame).frameE = frame := rfl
@[simp] theorem State.writeIdent_frameO (s : State) (frame : Frame) : (s.writeIdent frame).frameO = s.frameO := rfl
@[simp] theorem State.writeIdent_modBuf (s : State) (frame : Frame) : (s.writeIdent frame).modBuf = s.modBuf := rfl
@[simp] theorem State.writeIdent_sampBuf (s : State) (frame : Frame) : (s.writeIdent frame).sampBuf = s.sampBuf := rfl
@[simp] theorem State.writeIdent_slen (s : State) (frame : Frame) : (s.writeIdent frame).slen = s.slen := rfl
@[simp] theorem State.writeIdent_diag (s : State) (frame : Frame) : (s.writeIdent frame).diag = s.diag := rfl
@[simp] theorem State.writeIdent_vAlt (s : State) (frame : Frame) : (s.writeIdent frame).vAlt = s.vAlt := rfl
@[simp] theorem State.writeIdent_vCpr (s : State) (frame : Frame) : (s.writeIdent frame).vCpr = s.vCpr := rfl
@[simp] theorem State.writeIdent_vCrc (s : State) (frame : Frame) : (s.writeIdent frame).vCrc = s.vCrc := rfl
@[simp] theorem State.writeIdent_vFe (s : State) (frame : Frame) : (s.writeIdent frame).vFe = true := rfl
@[simp] theorem State.writeIdent_vFo (s : State) (frame : Frame) : (s.writeIdent frame).vFo = false := rfl
@[simp] theorem State.writeIdent_vMod (s : State) (frame : Frame) : (s.writeIdent frame).vMod = s.vMod := rfl
@[simp] theorem State.writeIdent_vSamp (s : State) (frame : Frame) : (s.writeIdent frame).vSamp = s.vSamp := rfl
@[simp] theorem State.writeIdent_vDiag (s : State) (frame : Frame) : (s.writeIdent frame).vDiag = s.vDiag := rfl
@[simp] theorem State.writeIdent_status (s : State) (frame : Frame) : (s.writeIdent frame).status = s.status := rfl
@[simp] theorem State.writeIdent_rst (s : State) (frame : Frame) : (s.writeIdent frame).rst = s.rst := rfl
@[simp] theorem State.writeIdent_host (s : State) (frame : Frame) : (s.writeIdent frame).host = s.host := rfl
@[simp] theorem State.writeIdent_readData (s : State) (frame : Frame) : (s.writeIdent frame).readData = s.readData := rfl
@[simp] theorem State.writeIdent_busy (s : State) (frame : Frame) : (s.writeIdent frame).busy = s.busy := rfl
@[simp] theorem State.writeIdent_done (s : State) (frame : Frame) : (s.writeIdent frame).done = s.done := rfl
@[simp] theorem State.writeIdent_err (s : State) (frame : Frame) : (s.writeIdent frame).err = s.err := rfl
@[simp] theorem State.writeIdent_cmdReady (s : State) (frame : Frame) : (s.writeIdent frame).cmdReady = s.cmdReady := rfl

@[simp] theorem State.writeModBuf_altcode (s : State) (buf : ModBuf) : (s.writeModBuf buf).altcode = s.altcode := rfl
@[simp] theorem State.writeModBuf_cprYz (s : State) (buf : ModBuf) : (s.writeModBuf buf).cprYz = s.cprYz := rfl
@[simp] theorem State.writeModBuf_cprXz (s : State) (buf : ModBuf) : (s.writeModBuf buf).cprXz = s.cprXz := rfl
@[simp] theorem State.writeModBuf_crcReg (s : State) (buf : ModBuf) : (s.writeModBuf buf).crcReg = s.crcReg := rfl
@[simp] theorem State.writeModBuf_frameE (s : State) (buf : ModBuf) : (s.writeModBuf buf).frameE = s.frameE := rfl
@[simp] theorem State.writeModBuf_frameO (s : State) (buf : ModBuf) : (s.writeModBuf buf).frameO = s.frameO := rfl
@[simp] theorem State.writeModBuf_modBuf (s : State) (buf : ModBuf) : (s.writeModBuf buf).modBuf = buf := rfl
@[simp] theorem State.writeModBuf_sampBuf (s : State) (buf : ModBuf) : (s.writeModBuf buf).sampBuf = s.sampBuf := rfl
@[simp] theorem State.writeModBuf_slen (s : State) (buf : ModBuf) : (s.writeModBuf buf).slen = s.slen := rfl
@[simp] theorem State.writeModBuf_diag (s : State) (buf : ModBuf) : (s.writeModBuf buf).diag = s.diag := rfl
@[simp] theorem State.writeModBuf_vAlt (s : State) (buf : ModBuf) : (s.writeModBuf buf).vAlt = s.vAlt := rfl
@[simp] theorem State.writeModBuf_vCpr (s : State) (buf : ModBuf) : (s.writeModBuf buf).vCpr = s.vCpr := rfl
@[simp] theorem State.writeModBuf_vCrc (s : State) (buf : ModBuf) : (s.writeModBuf buf).vCrc = s.vCrc := rfl
@[simp] theorem State.writeModBuf_vFe (s : State) (buf : ModBuf) : (s.writeModBuf buf).vFe = s.vFe := rfl
@[simp] theorem State.writeModBuf_vFo (s : State) (buf : ModBuf) : (s.writeModBuf buf).vFo = s.vFo := rfl
@[simp] theorem State.writeModBuf_vMod (s : State) (buf : ModBuf) : (s.writeModBuf buf).vMod = true := rfl
@[simp] theorem State.writeModBuf_vSamp (s : State) (buf : ModBuf) : (s.writeModBuf buf).vSamp = s.vSamp := rfl
@[simp] theorem State.writeModBuf_vDiag (s : State) (buf : ModBuf) : (s.writeModBuf buf).vDiag = s.vDiag := rfl
@[simp] theorem State.writeModBuf_status (s : State) (buf : ModBuf) : (s.writeModBuf buf).status = s.status := rfl
@[simp] theorem State.writeModBuf_rst (s : State) (buf : ModBuf) : (s.writeModBuf buf).rst = s.rst := rfl
@[simp] theorem State.writeModBuf_host (s : State) (buf : ModBuf) : (s.writeModBuf buf).host = s.host := rfl
@[simp] theorem State.writeModBuf_readData (s : State) (buf : ModBuf) : (s.writeModBuf buf).readData = s.readData := rfl
@[simp] theorem State.writeModBuf_busy (s : State) (buf : ModBuf) : (s.writeModBuf buf).busy = s.busy := rfl
@[simp] theorem State.writeModBuf_done (s : State) (buf : ModBuf) : (s.writeModBuf buf).done = s.done := rfl
@[simp] theorem State.writeModBuf_err (s : State) (buf : ModBuf) : (s.writeModBuf buf).err = s.err := rfl
@[simp] theorem State.writeModBuf_cmdReady (s : State) (buf : ModBuf) : (s.writeModBuf buf).cmdReady = s.cmdReady := rfl

@[simp] theorem State.writeSamples_altcode (s : State) (out : Nat → Sample) (n : Nat) : (s.writeSamples out n).altcode = s.altcode := rfl
@[simp] theorem State.writeSamples_cprYz (s : State) (out : Nat → Sample) (n : Nat) : (s.writeSamples out n).cprYz = s.cprYz := rfl
@[simp] theorem State.writeSamples_cprXz (s : State) (out : Nat → Sample) (n : Nat) : (s.writeSamples out n).cprXz = s.cprXz := rfl
@[simp] theorem State.writeSamples_crcReg (s : State) (out : Nat → Sample) (n : Nat) : (s.writeSamples out n).crcReg = s.crcReg := rfl
@[simp] theorem State.writeSamples_frameE (s : State) (out : Nat → Sample) (n : Nat) : (s.writeSamples out n).frameE = s.frameE := rfl
@[simp] theorem State.writeSamples_frameO (s : State) (out : Nat → Sample) (n : Nat) : (s.writeSamples out n).frameO = s.frameO := rfl
@[simp] theorem State.writeSamples_modBuf (s : State) (out : Nat → Sample) (n : Nat) : (s.writeSamples out n).modBuf = s.modBuf := rfl
@[simp] theorem State.writeSamples_sampBuf (s : State) (out : Nat → Sample) (n : Nat) : (s.writeSamples out n).sampBuf =
    packWords (fun i => if i < n then out i else wordAt s.sampBuf i) 4096 := rfl
@[simp] theorem State.writeSamples_slen (s : State) (out : Nat → Sample) (n : Nat) : (s.writeSamples out n).slen = BitVec.ofNat 13 n := rfl
@[simp] theorem State.writeSamples_diag (s : State) (out : Nat → Sample) (n : Nat) : (s.writeSamples out n).diag = s.diag := rfl
@[simp] theorem State.writeSamples_vAlt (s : State) (out : Nat → Sample) (n : Nat) : (s.writeSamples out n).vAlt = s.vAlt := rfl
@[simp] theorem State.writeSamples_vCpr (s : State) (out : Nat → Sample) (n : Nat) : (s.writeSamples out n).vCpr = s.vCpr := rfl
@[simp] theorem State.writeSamples_vCrc (s : State) (out : Nat → Sample) (n : Nat) : (s.writeSamples out n).vCrc = s.vCrc := rfl
@[simp] theorem State.writeSamples_vFe (s : State) (out : Nat → Sample) (n : Nat) : (s.writeSamples out n).vFe = s.vFe := rfl
@[simp] theorem State.writeSamples_vFo (s : State) (out : Nat → Sample) (n : Nat) : (s.writeSamples out n).vFo = s.vFo := rfl
@[simp] theorem State.writeSamples_vMod (s : State) (out : Nat → Sample) (n : Nat) : (s.writeSamples out n).vMod = s.vMod := rfl
@[simp] theorem State.writeSamples_vSamp (s : State) (out : Nat → Sample) (n : Nat) : (s.writeSamples out n).vSamp = true := rfl
@[simp] theorem State.writeSamples_vDiag (s : State) (out : Nat → Sample) (n : Nat) : (s.writeSamples out n).vDiag = s.vDiag := rfl
@[simp] theorem State.writeSamples_status (s : State) (out : Nat → Sample) (n : Nat) : (s.writeSamples out n).status = s.status := rfl
@[simp] theorem State.writeSamples_rst (s : State) (out : Nat → Sample) (n : Nat) : (s.writeSamples out n).rst = s.rst := rfl
@[simp] theorem State.writeSamples_host (s : State) (out : Nat → Sample) (n : Nat) : (s.writeSamples out n).host = s.host := rfl
@[simp] theorem State.writeSamples_readData (s : State) (out : Nat → Sample) (n : Nat) : (s.writeSamples out n).readData = s.readData := rfl
@[simp] theorem State.writeSamples_busy (s : State) (out : Nat → Sample) (n : Nat) : (s.writeSamples out n).busy = s.busy := rfl
@[simp] theorem State.writeSamples_done (s : State) (out : Nat → Sample) (n : Nat) : (s.writeSamples out n).done = s.done := rfl
@[simp] theorem State.writeSamples_err (s : State) (out : Nat → Sample) (n : Nat) : (s.writeSamples out n).err = s.err := rfl
@[simp] theorem State.writeSamples_cmdReady (s : State) (out : Nat → Sample) (n : Nat) : (s.writeSamples out n).cmdReady = s.cmdReady := rfl

@[simp] theorem State.writeDiag_altcode (s : State) (mask : BitVec 8) : (s.writeDiag mask).altcode = s.altcode := rfl
@[simp] theorem State.writeDiag_cprYz (s : State) (mask : BitVec 8) : (s.writeDiag mask).cprYz = s.cprYz := rfl
@[simp] theorem State.writeDiag_cprXz (s : State) (mask : BitVec 8) : (s.writeDiag mask).cprXz = s.cprXz := rfl
@[simp] theorem State.writeDiag_crcReg (s : State) (mask : BitVec 8) : (s.writeDiag mask).crcReg = s.crcReg := rfl
@[simp] theorem State.writeDiag_frameE (s : State) (mask : BitVec 8) : (s.writeDiag mask).frameE = s.frameE := rfl
@[simp] theorem State.writeDiag_frameO (s : State) (mask : BitVec 8) : (s.writeDiag mask).frameO = s.frameO := rfl
@[simp] theorem State.writeDiag_modBuf (s : State) (mask : BitVec 8) : (s.writeDiag mask).modBuf = s.modBuf := rfl
@[simp] theorem State.writeDiag_sampBuf (s : State) (mask : BitVec 8) : (s.writeDiag mask).sampBuf = s.sampBuf := rfl
@[simp] theorem State.writeDiag_slen (s : State) (mask : BitVec 8) : (s.writeDiag mask).slen = s.slen := rfl
@[simp] theorem State.writeDiag_diag (s : State) (mask : BitVec 8) : (s.writeDiag mask).diag = mask := rfl
@[simp] theorem State.writeDiag_vAlt (s : State) (mask : BitVec 8) : (s.writeDiag mask).vAlt = s.vAlt := rfl
@[simp] theorem State.writeDiag_vCpr (s : State) (mask : BitVec 8) : (s.writeDiag mask).vCpr = s.vCpr := rfl
@[simp] theorem State.writeDiag_vCrc (s : State) (mask : BitVec 8) : (s.writeDiag mask).vCrc = s.vCrc := rfl
@[simp] theorem State.writeDiag_vFe (s : State) (mask : BitVec 8) : (s.writeDiag mask).vFe = s.vFe := rfl
@[simp] theorem State.writeDiag_vFo (s : State) (mask : BitVec 8) : (s.writeDiag mask).vFo = s.vFo := rfl
@[simp] theorem State.writeDiag_vMod (s : State) (mask : BitVec 8) : (s.writeDiag mask).vMod = s.vMod := rfl
@[simp] theorem State.writeDiag_vSamp (s : State) (mask : BitVec 8) : (s.writeDiag mask).vSamp = s.vSamp := rfl
@[simp] theorem State.writeDiag_vDiag (s : State) (mask : BitVec 8) : (s.writeDiag mask).vDiag = true := rfl
@[simp] theorem State.writeDiag_status (s : State) (mask : BitVec 8) : (s.writeDiag mask).status = s.status := rfl
@[simp] theorem State.writeDiag_rst (s : State) (mask : BitVec 8) : (s.writeDiag mask).rst = s.rst := rfl
@[simp] theorem State.writeDiag_host (s : State) (mask : BitVec 8) : (s.writeDiag mask).host = s.host := rfl
@[simp] theorem State.writeDiag_readData (s : State) (mask : BitVec 8) : (s.writeDiag mask).readData = s.readData := rfl
@[simp] theorem State.writeDiag_busy (s : State) (mask : BitVec 8) : (s.writeDiag mask).busy = s.busy := rfl
@[simp] theorem State.writeDiag_done (s : State) (mask : BitVec 8) : (s.writeDiag mask).done = s.done := rfl
@[simp] theorem State.writeDiag_err (s : State) (mask : BitVec 8) : (s.writeDiag mask).err = s.err := rfl
@[simp] theorem State.writeDiag_cmdReady (s : State) (mask : BitVec 8) : (s.writeDiag mask).cmdReady = s.cmdReady := rfl

@[simp] theorem State.withHost_altcode (s : State) (rest : List HostEvent) : (s.withHost rest).altcode = s.altcode := rfl
@[simp] theorem State.withHost_cprYz (s : State) (rest : List HostEvent) : (s.withHost rest).cprYz = s.cprYz := rfl
@[simp] theorem State.withHost_cprXz (s : State) (rest : List HostEvent) : (s.withHost rest).cprXz = s.cprXz := rfl
@[simp] theorem State.withHost_crcReg (s : State) (rest : List HostEvent) : (s.withHost rest).crcReg = s.crcReg := rfl
@[simp] theorem State.withHost_frameE (s : State) (rest : List HostEvent) : (s.withHost rest).frameE = s.frameE := rfl
@[simp] theorem State.withHost_frameO (s : State) (rest : List HostEvent) : (s.withHost rest).frameO = s.frameO := rfl
@[simp] theorem State.withHost_modBuf (s : State) (rest : List HostEvent) : (s.withHost rest).modBuf = s.modBuf := rfl
@[simp] theorem State.withHost_sampBuf (s : State) (rest : List HostEvent) : (s.withHost rest).sampBuf = s.sampBuf := rfl
@[simp] theorem State.withHost_slen (s : State) (rest : List HostEvent) : (s.withHost rest).slen = s.slen := rfl
@[simp] theorem State.withHost_diag (s : State) (rest : List HostEvent) : (s.withHost rest).diag = s.diag := rfl
@[simp] theorem State.withHost_vAlt (s : State) (rest : List HostEvent) : (s.withHost rest).vAlt = s.vAlt := rfl
@[simp] theorem State.withHost_vCpr (s : State) (rest : List HostEvent) : (s.withHost rest).vCpr = s.vCpr := rfl
@[simp] theorem State.withHost_vCrc (s : State) (rest : List HostEvent) : (s.withHost rest).vCrc = s.vCrc := rfl
@[simp] theorem State.withHost_vFe (s : State) (rest : List HostEvent) : (s.withHost rest).vFe = s.vFe := rfl
@[simp] theorem State.withHost_vFo (s : State) (rest : List HostEvent) : (s.withHost rest).vFo = s.vFo := rfl
@[simp] theorem State.withHost_vMod (s : State) (rest : List HostEvent) : (s.withHost rest).vMod = s.vMod := rfl
@[simp] theorem State.withHost_vSamp (s : State) (rest : List HostEvent) : (s.withHost rest).vSamp = s.vSamp := rfl
@[simp] theorem State.withHost_vDiag (s : State) (rest : List HostEvent) : (s.withHost rest).vDiag = s.vDiag := rfl
@[simp] theorem State.withHost_status (s : State) (rest : List HostEvent) : (s.withHost rest).status = s.status := rfl
@[simp] theorem State.withHost_rst (s : State) (rest : List HostEvent) : (s.withHost rest).rst = s.rst := rfl
@[simp] theorem State.withHost_host (s : State) (rest : List HostEvent) : (s.withHost rest).host = rest := rfl
@[simp] theorem State.withHost_readData (s : State) (rest : List HostEvent) : (s.withHost rest).readData = s.readData := rfl
@[simp] theorem State.withHost_busy (s : State) (rest : List HostEvent) : (s.withHost rest).busy = s.busy := rfl
@[simp] theorem State.withHost_done (s : State) (rest : List HostEvent) : (s.withHost rest).done = s.done := rfl
@[simp] theorem State.withHost_err (s : State) (rest : List HostEvent) : (s.withHost rest).err = s.err := rfl
@[simp] theorem State.withHost_cmdReady (s : State) (rest : List HostEvent) : (s.withHost rest).cmdReady = s.cmdReady := rfl

@[simp] theorem State.withReadData_altcode (s : State) (d : ReadResult) : (s.withReadData d).altcode = s.altcode := rfl
@[simp] theorem State.withReadData_cprYz (s : State) (d : ReadResult) : (s.withReadData d).cprYz = s.cprYz := rfl
@[simp] theorem State.withReadData_cprXz (s : State) (d : ReadResult) : (s.withReadData d).cprXz = s.cprXz := rfl
@[simp] theorem State.withReadData_crcReg (s : State) (d : ReadResult) : (s.withReadData d).crcReg = s.crcReg := rfl
@[simp] theorem State.withReadData_frameE (s : State) (d : ReadResult) : (s.withReadData d).frameE = s.frameE := rfl
@[simp] theorem State.withReadData_frameO (s : State) (d : ReadResult) : (s.withReadData d).frameO = s.frameO := rfl
@[simp] theorem State.withReadData_modBuf (s : State) (d : ReadResult) : (s.withReadData d).modBuf = s.modBuf := rfl
@[simp] theorem State.withReadData_sampBuf (s : State) (d : ReadResult) : (s.withReadData d).sampBuf = s.sampBuf := rfl
@[simp] theorem State.withReadData_slen (s : State) (d : ReadResult) : (s.withReadData d).slen = s.slen := rfl
@[simp] theorem State.withReadData_diag (s : State) (d : ReadResult) : (s.withReadData d).diag = s.diag := rfl
@[simp] theorem State.withReadData_vAlt (s : State) (d : ReadResult) : (s.withReadData d).vAlt = s.vAlt := rfl
@[simp] theorem State.withReadData_vCpr (s : State) (d : ReadResult) : (s.withReadData d).vCpr = s.vCpr := rfl
@[simp] theorem State.withReadData_vCrc (s : State) (d : ReadResult) : (s.withReadData d).vCrc = s.vCrc := rfl
@[simp] theorem State.withReadData_vFe (s : State) (d : ReadResult) : (s.withReadData d).vFe = s.vFe := rfl
@[simp] theorem State.withReadData_vFo (s : State) (d : ReadResult) : (s.withReadData d).vFo = s.vFo := rfl
@[simp] theorem State.withReadData_vMod (s : State) (d : ReadResult) : (s.withReadData d).vMod = s.vMod := rfl
@[simp] theorem State.withReadData_vSamp (s : State) (d : ReadResult) : (s.withReadData d).vSamp = s.vSamp := rfl
@[simp] theorem State.withReadData_vDiag (s : State) (d : ReadResult) : (s.withReadData d).vDiag = s.vDiag := rfl
@[simp] theorem State.withReadData_status (s : State) (d : ReadResult) : (s.withReadData d).status = s.status := rfl
@[simp] theorem State.withReadData_rst (s : State) (d : ReadResult) : (s.withReadData d).rst = s.rst := rfl
@[simp] theorem State.withReadData_host (s : State) (d : ReadResult) : (s.withReadData d).host = s.host := rfl
@[simp] theorem State.withReadData_readData (s : State) (d : ReadResult) : (s.withReadData d).readData = some d := rfl
@[simp] theorem State.withReadData_busy (s : State) (d : ReadResult) : (s.withReadData d).busy = s.busy := rfl
@[simp] theorem State.withReadData_done (s : State) (d : ReadResult) : (s.withReadData d).done = s.done := rfl
@[simp] theorem State.withReadData_err (s : State) (d : ReadResult) : (s.withReadData d).err = s.err := rfl
@[simp] theorem State.withReadData_cmdReady (s : State) (d : ReadResult) : (s.withReadData d).cmdReady = s.cmdReady := rfl

@[simp] theorem State.issue_altcode (s : State) : s.issue.altcode = s.altcode := rfl
@[simp] theorem State.issue_cprYz (s : State) : s.issue.cprYz = s.cprYz := rfl
@[simp] theorem State.issue_cprXz (s : State) : s.issue.cprXz = s.cprXz := rfl
@[simp] theorem State.issue_crcReg (s : State) : s.issue.crcReg = s.crcReg := rfl
@[simp] theorem State.issue_frameE (s : State) : s.issue.frameE = s.frameE := rfl
@[simp] theorem State.issue_frameO (s : State) : s.issue.frameO = s.frameO := rfl
@[simp] theorem State.issue_modBuf (s : State) : s.issue.modBuf = s.modBuf := rfl
@[simp] theorem State.issue_sampBuf (s : State) : s.issue.sampBuf = s.sampBuf := rfl
@[simp] theorem State.issue_slen (s : State) : s.issue.slen = s.slen := rfl
@[simp] theorem State.issue_diag (s : State) : s.issue.diag = s.diag := rfl
@[simp] theorem State.issue_vAlt (s : State) : s.issue.vAlt = s.vAlt := rfl
@[simp] theorem State.issue_vCpr (s : State) : s.issue.vCpr = s.vCpr := rfl
@[simp] theorem State.issue_vCrc (s : State) : s.issue.vCrc = s.vCrc := rfl
@[simp] theorem State.issue_vFe (s : State) : s.issue.vFe = s.vFe := rfl
@[simp] theorem State.issue_vFo (s : State) : s.issue.vFo = s.vFo := rfl
@[simp] theorem State.issue_vMod (s : State) : s.issue.vMod = s.vMod := rfl
@[simp] theorem State.issue_vSamp (s : State) : s.issue.vSamp = s.vSamp := rfl
@[simp] theorem State.issue_vDiag (s : State) : s.issue.vDiag = s.vDiag := rfl
@[simp] theorem State.issue_status (s : State) : s.issue.status = statusWord s.err false true := rfl
@[simp] theorem State.issue_rst (s : State) : s.issue.rst = s.rst := rfl
@[simp] theorem State.issue_host (s : State) : s.issue.host = s.host := rfl
@[simp] theorem State.issue_readData (s : State) : s.issue.readData = s.readData := rfl

@[simp] theorem State.presentNext_altcode (s : State) (c : Cmd) : (s.presentNext c).altcode = s.altcode := rfl
@[simp] theorem State.presentNext_cprYz (s : State) (c : Cmd) : (s.presentNext c).cprYz = s.cprYz := rfl
@[simp] theorem State.presentNext_cprXz (s : State) (c : Cmd) : (s.presentNext c).cprXz = s.cprXz := rfl
@[simp] theorem State.presentNext_crcReg (s : State) (c : Cmd) : (s.presentNext c).crcReg = s.crcReg := rfl
@[simp] theorem State.presentNext_frameE (s : State) (c : Cmd) : (s.presentNext c).frameE = s.frameE := rfl
@[simp] theorem State.presentNext_frameO (s : State) (c : Cmd) : (s.presentNext c).frameO = s.frameO := rfl
@[simp] theorem State.presentNext_modBuf (s : State) (c : Cmd) : (s.presentNext c).modBuf = s.modBuf := rfl
@[simp] theorem State.presentNext_sampBuf (s : State) (c : Cmd) : (s.presentNext c).sampBuf = s.sampBuf := rfl
@[simp] theorem State.presentNext_slen (s : State) (c : Cmd) : (s.presentNext c).slen = s.slen := rfl
@[simp] theorem State.presentNext_diag (s : State) (c : Cmd) : (s.presentNext c).diag = s.diag := rfl
@[simp] theorem State.presentNext_vAlt (s : State) (c : Cmd) : (s.presentNext c).vAlt = s.vAlt := rfl
@[simp] theorem State.presentNext_vCpr (s : State) (c : Cmd) : (s.presentNext c).vCpr = s.vCpr := rfl
@[simp] theorem State.presentNext_vCrc (s : State) (c : Cmd) : (s.presentNext c).vCrc = s.vCrc := rfl
@[simp] theorem State.presentNext_vFe (s : State) (c : Cmd) : (s.presentNext c).vFe = s.vFe := rfl
@[simp] theorem State.presentNext_vFo (s : State) (c : Cmd) : (s.presentNext c).vFo = s.vFo := rfl
@[simp] theorem State.presentNext_vMod (s : State) (c : Cmd) : (s.presentNext c).vMod = s.vMod := rfl
@[simp] theorem State.presentNext_vSamp (s : State) (c : Cmd) : (s.presentNext c).vSamp = s.vSamp := rfl
@[simp] theorem State.presentNext_vDiag (s : State) (c : Cmd) : (s.presentNext c).vDiag = s.vDiag := rfl
@[simp] theorem State.presentNext_status (s : State) (c : Cmd) : (s.presentNext c).status = statusWord s.err s.done false := rfl
@[simp] theorem State.presentNext_rst (s : State) (c : Cmd) : (s.presentNext c).rst = false := rfl
@[simp] theorem State.presentNext_host (s : State) (c : Cmd) : (s.presentNext c).host = .command c :: s.host := rfl
@[simp] theorem State.presentNext_readData (s : State) (c : Cmd) : (s.presentNext c).readData = s.readData := rfl

@[simp] theorem State.complete_altcode (e : ErrCode) (s : State) : (s.complete e).altcode = s.altcode := rfl
@[simp] theorem State.complete_cprYz (e : ErrCode) (s : State) : (s.complete e).cprYz = s.cprYz := rfl
@[simp] theorem State.complete_cprXz (e : ErrCode) (s : State) : (s.complete e).cprXz = s.cprXz := rfl
@[simp] theorem State.complete_crcReg (e : ErrCode) (s : State) : (s.complete e).crcReg = s.crcReg := rfl
@[simp] theorem State.complete_frameE (e : ErrCode) (s : State) : (s.complete e).frameE = s.frameE := rfl
@[simp] theorem State.complete_frameO (e : ErrCode) (s : State) : (s.complete e).frameO = s.frameO := rfl
@[simp] theorem State.complete_modBuf (e : ErrCode) (s : State) : (s.complete e).modBuf = s.modBuf := rfl
@[simp] theorem State.complete_sampBuf (e : ErrCode) (s : State) : (s.complete e).sampBuf = s.sampBuf := rfl
@[simp] theorem State.complete_slen (e : ErrCode) (s : State) : (s.complete e).slen = s.slen := rfl
@[simp] theorem State.complete_diag (e : ErrCode) (s : State) : (s.complete e).diag = s.diag := rfl
@[simp] theorem State.complete_vAlt (e : ErrCode) (s : State) : (s.complete e).vAlt = s.vAlt := rfl
@[simp] theorem State.complete_vCpr (e : ErrCode) (s : State) : (s.complete e).vCpr = s.vCpr := rfl
@[simp] theorem State.complete_vCrc (e : ErrCode) (s : State) : (s.complete e).vCrc = s.vCrc := rfl
@[simp] theorem State.complete_vFe (e : ErrCode) (s : State) : (s.complete e).vFe = s.vFe := rfl
@[simp] theorem State.complete_vFo (e : ErrCode) (s : State) : (s.complete e).vFo = s.vFo := rfl
@[simp] theorem State.complete_vMod (e : ErrCode) (s : State) : (s.complete e).vMod = s.vMod := rfl
@[simp] theorem State.complete_vSamp (e : ErrCode) (s : State) : (s.complete e).vSamp = s.vSamp := rfl
@[simp] theorem State.complete_vDiag (e : ErrCode) (s : State) : (s.complete e).vDiag = s.vDiag := rfl
@[simp] theorem State.complete_status (e : ErrCode) (s : State) : (s.complete e).status = statusWord (errBits e) true false := rfl
@[simp] theorem State.complete_rst (e : ErrCode) (s : State) : (s.complete e).rst = s.rst := rfl
@[simp] theorem State.complete_host (e : ErrCode) (s : State) : (s.complete e).host = s.host := rfl
@[simp] theorem State.complete_readData (e : ErrCode) (s : State) : (s.complete e).readData = s.readData := rfl

@[simp] theorem State.clear_altcode (s : State) : s.clear.altcode = State.reset.altcode := rfl
@[simp] theorem State.clear_cprYz (s : State) : s.clear.cprYz = State.reset.cprYz := rfl
@[simp] theorem State.clear_cprXz (s : State) : s.clear.cprXz = State.reset.cprXz := rfl
@[simp] theorem State.clear_crcReg (s : State) : s.clear.crcReg = State.reset.crcReg := rfl
@[simp] theorem State.clear_frameE (s : State) : s.clear.frameE = State.reset.frameE := rfl
@[simp] theorem State.clear_frameO (s : State) : s.clear.frameO = State.reset.frameO := rfl
@[simp] theorem State.clear_modBuf (s : State) : s.clear.modBuf = State.reset.modBuf := rfl
@[simp] theorem State.clear_sampBuf (s : State) : s.clear.sampBuf = State.reset.sampBuf := rfl
@[simp] theorem State.clear_slen (s : State) : s.clear.slen = State.reset.slen := rfl
@[simp] theorem State.clear_diag (s : State) : s.clear.diag = State.reset.diag := rfl
@[simp] theorem State.clear_vAlt (s : State) : s.clear.vAlt = State.reset.vAlt := rfl
@[simp] theorem State.clear_vCpr (s : State) : s.clear.vCpr = State.reset.vCpr := rfl
@[simp] theorem State.clear_vCrc (s : State) : s.clear.vCrc = State.reset.vCrc := rfl
@[simp] theorem State.clear_vFe (s : State) : s.clear.vFe = State.reset.vFe := rfl
@[simp] theorem State.clear_vFo (s : State) : s.clear.vFo = State.reset.vFo := rfl
@[simp] theorem State.clear_vMod (s : State) : s.clear.vMod = State.reset.vMod := rfl
@[simp] theorem State.clear_vSamp (s : State) : s.clear.vSamp = State.reset.vSamp := rfl
@[simp] theorem State.clear_vDiag (s : State) : s.clear.vDiag = State.reset.vDiag := rfl
@[simp] theorem State.clear_status (s : State) : s.clear.status = State.reset.status := rfl
@[simp] theorem State.clear_rst (s : State) : s.clear.rst = s.rst := rfl
@[simp] theorem State.clear_host (s : State) : s.clear.host = s.host := rfl
@[simp] theorem State.clear_readData (s : State) : s.clear.readData = s.readData := rfl

end Sys2Proof.Machine
end

