-- ==== Sys2Proof/Laws/Ops.lean ====
section
/-! SUPPORT. One lemma for each shared operation that says once everything it can do. -/

namespace Sys2Proof.Machine

theorem statusWord_busy (err : BitVec 2) (done busy : Bool) :
    (statusWord err done busy).getLsbD 0 = busy := by
  revert err done busy; decide

theorem statusWord_done (err : BitVec 2) (done busy : Bool) :
    (statusWord err done busy).getLsbD 1 = done := by
  revert err done busy; decide

theorem statusWord_err (err : BitVec 2) (done busy : Bool) :
    (statusWord err done busy).extractLsb' 2 2 = err := by
  revert err done busy; decide

@[simp] theorem State.complete_busy (e : ErrCode) (s : State) : (s.complete e).busy = false :=
  statusWord_busy _ _ _

@[simp] theorem State.complete_done (e : ErrCode) (s : State) : (s.complete e).done = true :=
  statusWord_done _ _ _

@[simp] theorem State.complete_err (e : ErrCode) (s : State) : (s.complete e).err = errBits e :=
  statusWord_err _ _ _

theorem statusWord_success : statusWord (errBits .none) true false = 0b0010#4 := rfl
theorem statusWord_illop : statusWord (errBits .illop) true false = 0b0110#4 := rfl
theorem statusWord_len : statusWord (errBits .len) true false = 0b1010#4 := rfl
theorem statusWord_nonFinite : statusWord (errBits .nonFinite) true false = 0b1110#4 := rfl

/-- Every completion overwrites the whole of STATUS, so an earlier completion leaves no trace. -/
@[simp] theorem State.complete_complete (e e' : ErrCode) (s : State) :
    (s.complete e).complete e' = s.complete e' := rfl

theorem State.cmdReady_iff (s : State) : s.cmdReady = true ↔ s.busy = false ∧ s.rst = false := by
  cases hb : s.busy <;> cases hr : s.rst <;> simp [State.cmdReady, hb, hr]

theorem isFinite_iff (w : Binary64) : isFinite w = true ↔ w.extractLsb' 52 11 ≠ 0x7FF#11 := by
  simp only [isFinite, expField, bne_iff_ne]
  rfl

@[simp] theorem State.withHost_valid (s : State) (rest : List HostEvent) (r : ReadPort) :
    (s.withHost rest).valid r = s.valid r := by
  cases r <;> rfl

@[simp] theorem State.withHost_content (s : State) (rest : List HostEvent) (r : ReadPort) :
    (s.withHost rest).content r = s.content r := by
  cases r <;> rfl

/-- What a host read leaves: the core as it was, and its result. -/
theorem State.hostRead_eq (s : State) (r : ReadPort) :
    s.hostRead r = { s with readData := some (s.readPort r) } := rfl

/-- STATUS has a value at any time. -/
theorem State.readPort_status (s : State) : s.readPort .status = .value (.bits4 s.status) := rfl

/-- When a host read of a result register has a value. -/
theorem State.readPort_eq {s : State} {r : ReadPort} (h : r ≠ .status) :
    s.readPort r =
      if s.busy then .fault (.readBusy r) else if s.valid r then s.content r
      else .fault (.readInvalid r) := by
  simp [State.readPort, h]

/-- What driving the reset input does. -/
theorem State.driveRst_cases (s : State) (level : Bool) :
    (level = false ∧ s.rst = false ∧ s.driveRst level = s) ∨
      s.driveRst level = { s.clear with rst := level } := by
  cases level <;> cases h : s.rst <;> simp [State.driveRst, h]

@[simp] theorem State.driveRst_host (s : State) (level : Bool) : (s.driveRst level).host = s.host := by
  unfold State.driveRst
  split <;> rfl

/-- A step with no action pending. -/
theorem step_idle {s : State} (h : s.host = []) : s.advance = .next s := by
  simp [State.advance, h]

/-- A step takes the first pending action. -/
theorem advance_cons {s : State} {e : HostEvent} {rest : List HostEvent} (h : s.host = e :: rest) :
    s.advance = (s.withHost rest).act e := by
  simp [State.advance, h]

/-- What presenting a command does. -/
theorem State.present_ready {s : State} (c : Cmd) (h : s.cmdReady = true) :
    s.present c = exec (decodeCmd c) s.issue := by
  simp [State.present, h]

theorem State.present_notReady {s : State} (c : Cmd) (h : s.cmdReady = false) :
    s.present c = .next s := by
  simp [State.present, h]

/-- The bits of byte i of a byte sequence of n bytes. -/
theorem byteAt_getLsbD {n : Nat} (b : BitVec (8 * n)) (i j : Nat) :
    (byteAt b i).getLsbD j = (decide (j < 8) && b.getLsbD (8 * n - 8 * (i + 1) + j)) := by
  simp [byteAt, BitVec.getLsbD_extractLsb']

/-- Word i of a packed sequence. -/
theorem wordAt_packWords (f : Nat → Sample) : ∀ {n i : Nat}, i < n → wordAt (packWords f n) i = f i
  | n + 1, i, h => by
    apply BitVec.eq_of_getLsbD_eq
    intro j hj
    simp only [wordAt, packWords, BitVec.getLsbD_extractLsb', hj, decide_true, Bool.true_and]
    rw [BitVec.getLsbD_append]
    rcases Nat.lt_succ_iff_lt_or_eq.mp h with hi | rfl
    · rw [if_neg (by omega), ← wordAt_packWords f hi]
      simp only [wordAt, BitVec.getLsbD_extractLsb', hj, decide_true, Bool.true_and]
      congr 1
      omega
    · rw [if_pos (by omega)]
      congr 1
      omega

/-- A packed sequence depends on its words alone. -/
theorem packWords_congr {f g : Nat → Sample} : ∀ {n : Nat}, (∀ i < n, f i = g i) → packWords f n = packWords g n
  | 0, _ => rfl
  | n + 1, h => by
    unfold packWords
    rw [packWords_congr fun i hi => h i (by omega), h n (by omega)]

/-- A word of SAMPBUF after a write: below n the written one, above it the earlier one. -/
theorem State.writeSamples_word (s : State) (out : Nat → Sample) (n : Nat) {i : Nat} (h : i < 4096) :
    wordAt (s.writeSamples out n).sampBuf i = if i < n then out i else wordAt s.sampBuf i :=
  wordAt_packWords _ h

/-- Writing the same words again changes nothing more. -/
theorem State.writeSamples_again (s : State) (out : Nat → Sample) (n : Nat) :
    (s.writeSamples out n).writeSamples out n = s.writeSamples out n := by
  have h : ((s.writeSamples out n).writeSamples out n).sampBuf = (s.writeSamples out n).sampBuf :=
    packWords_congr fun i hi => by
      rw [State.writeSamples_word s out n hi]
      split <;> rfl
  simp only [State.writeSamples] at h ⊢
  rw [h]

/-- The floored remainder lies in [0, m). -/
theorem realMod_nonneg {x m : ℚ} (h : 0 < m) : 0 ≤ realMod x m := by
  have := (le_div_iff₀ h).mp (Int.floor_le (x / m))
  unfold realMod
  linarith

theorem realMod_lt {x m : ℚ} (h : 0 < m) : realMod x m < m := by
  have := (div_lt_iff₀ h).mp (Int.lt_floor_add_one (x / m))
  unfold realMod
  linarith

end Sys2Proof.Machine
end

