-- ==== Sys2Proof/Laws/Exec.lean ====
section
/-! SUPPORT. What each instruction can do, said once: if `exec` answers a next state, that state is one of
those named. Later proofs cite these instead of unfolding a meaning. -/

namespace Sys2Proof.Machine

variable {s t : State}

theorem exec_altenc_cases {alt : Binary64} {sel : Bool} (h : exec (.altenc alt sel) s = .next t) :
    isFinite alt = true ∧ t = (s.writeAltcode (altCode sel (val alt))).complete .none ∨
      isFinite alt = false ∧ t = s.complete .nonFinite := by
  simp only [exec, execAltenc] at h
  split at h <;> cases h <;> simp_all

theorem exec_cprenc_cases {lat lon : Binary64} {par surface : Bool}
    (h : exec (.cprenc lat lon par surface) s = .next t) :
    (isFinite lat && isFinite lon) = true ∧
        t = (s.writeCpr (cprLat (val lat) par surface)
          (cprLon Config.nlZero (val lat) (val lon) par surface)).complete .none ∨
      (isFinite lat && isFinite lon) = false ∧ t = s.complete .nonFinite := by
  simp only [exec, execCprenc] at h
  split at h <;> cases h <;> simp_all

theorem exec_crc24_cases {msg : Msg} (h : exec (.crc24 msg) s = .next t) :
    t = (s.writeCrc (crc24 msg)).complete .none := by
  cases h; rfl

theorem exec_posfrm_cases {o : PosReport} (h : exec (.posfrm o) s = .next t) :
    posFinite o = true ∧ t = (s.writeFrames (positionFrame Config.nlZero o false)
        (positionFrame Config.nlZero o true)).complete .none ∨
      posFinite o = false ∧ t = s.complete .nonFinite := by
  simp only [exec, execPosfrm] at h
  split at h <;> cases h <;> simp_all

theorem exec_idfrm_cases {o : IdReport} (h : exec (.idfrm o) s = .next t) :
    t = ((s.writeIdent (identFrame Config.ec o)).writeDiag (nameDiag o.name)).complete .none := by
  cases h; rfl

theorem exec_ppmmod_cases {even : Frame} {odd : Option Frame} (h : exec (.ppmmod even odd) s = .next t) :
    t = (s.writeModBuf (modBuffer even odd)).complete .none := by
  cases h; rfl

theorem exec_iqconv_cases {b : ModBuf} {len : BitVec 9} {lo hi : Sample}
    (h : exec (.iqconv b len lo hi) s = .next t) :
    len.toNat ≤ 256 ∧ t = (s.writeSamples (samples b lo hi) (16 * len.toNat)).complete .none ∨
      256 < len.toNat ∧ t = s.complete .len := by
  simp only [exec, execIqconv] at h
  split at h <;> rename_i hlen <;> cases h
  · exact .inl ⟨hlen, rfl⟩
  · exact .inr ⟨Nat.lt_of_not_le hlen, rfl⟩

theorem exec_posiq_cases {o : PosReport} {lo hi : Sample} (h : exec (.posiq o lo hi) s = .next t) :
    posFinite o = true ∧
        t = (s.writeSamples (samples (posBuffer Config.nlZero o) lo hi) 4096).complete .none ∨
      posFinite o = false ∧ t = s.complete .nonFinite := by
  simp only [exec, execPosiq] at h
  split at h <;> cases h
  · exact .inl ⟨by assumption, rfl⟩
  · simp_all

theorem exec_idiq_cases {o : IdReport} {lo hi : Sample} (h : exec (.idiq o lo hi) s = .next t) :
    t = ((s.writeSamples (samples (idBuffer Config.ec o) lo hi) 4096).writeDiag
      (nameDiag o.name)).complete .none := by
  cases h; rfl

/-- The seven rows without an operation. -/
abbrev isReserved (i : Instr) : Prop :=
  i = .reserved0 ∨ i = .reservedA ∨ i = .reservedB ∨ i = .reservedC ∨ i = .reservedD ∨ i = .reservedE ∨
    i = .reservedF

theorem exec_reserved {i : Instr} (h : isReserved i) : exec i s = .next (s.complete .illop) := by
  rcases h with rfl | rfl | rfl | rfl | rfl | rfl | rfl <;> rfl

/-- The decoder of commands yields a command: exec answers a next state for it. -/
theorem exec_decodeCmd (c : Cmd) (s : State) : ∃ t, exec (decodeCmd c) s = .next t := by
  unfold decodeCmd
  split <;> simp only [exec, execAltenc, execCprenc, execPosfrm, execIqconv, execPosiq] <;>
    first | exact ⟨_, rfl⟩ | (split <;> exact ⟨_, rfl⟩)

/-- No operation touches the host side of the interface. -/
theorem exec_hostSide {i : Instr} (h : exec i s = .next t) :
    t.host = s.host ∧ t.rst = s.rst ∧ t.readData = s.readData := by
  cases i with
  | altenc => rcases exec_altenc_cases h with ⟨_, rfl⟩ | ⟨_, rfl⟩ <;> simp
  | cprenc => rcases exec_cprenc_cases h with ⟨_, rfl⟩ | ⟨_, rfl⟩ <;> simp
  | posfrm => rcases exec_posfrm_cases h with ⟨_, rfl⟩ | ⟨_, rfl⟩ <;> simp
  | iqconv => rcases exec_iqconv_cases h with ⟨_, rfl⟩ | ⟨_, rfl⟩ <;> simp
  | posiq => rcases exec_posiq_cases h with ⟨_, rfl⟩ | ⟨_, rfl⟩ <;> simp
  | fmtDf17Position => cases h
  | fmtDf17Ident => cases h
  | fmtAltcode25ft => cases h
  | fmtAltcode100ft => cases h
  | fmtSymbol => cases h
  | fmtSamplePair => cases h
  | _ => cases h; simp [State.convert]

/-- Every operation ends with BUSY 0 and DONE 1. -/
theorem exec_status {i : Instr} (h : exec i s = .next t) : t.busy = false ∧ t.done = true := by
  cases i with
  | altenc => rcases exec_altenc_cases h with ⟨_, rfl⟩ | ⟨_, rfl⟩ <;> simp
  | cprenc => rcases exec_cprenc_cases h with ⟨_, rfl⟩ | ⟨_, rfl⟩ <;> simp
  | posfrm => rcases exec_posfrm_cases h with ⟨_, rfl⟩ | ⟨_, rfl⟩ <;> simp
  | iqconv => rcases exec_iqconv_cases h with ⟨_, rfl⟩ | ⟨_, rfl⟩ <;> simp
  | posiq => rcases exec_posiq_cases h with ⟨_, rfl⟩ | ⟨_, rfl⟩ <;> simp
  | fmtDf17Position => cases h
  | fmtDf17Ident => cases h
  | fmtAltcode25ft => cases h
  | fmtAltcode100ft => cases h
  | fmtSymbol => cases h
  | fmtSamplePair => cases h
  | _ => cases h; simp

end Sys2Proof.Machine
end

