-- ==== Sys2Proof/Laws/Bits.lean ====
section
/-! SUPPORT. Fields of a concatenation, by position: what the proofs about packing (R44), decoding and
encoding cite instead of unfolding bit vectors. -/

namespace Sys2Proof.Laws

open Sys2Proof.Machine

/-- A field that lies in the low part of a concatenation. -/
theorem extract_append_low {u v s l : Nat} (x : BitVec u) (y : BitVec v) (h : s + l ≤ v) :
    (x ++ y).extractLsb' s l = y.extractLsb' s l := by
  apply BitVec.eq_of_getLsbD_eq
  intro i hi
  simp only [BitVec.getLsbD_extractLsb', BitVec.getLsbD_append]
  simp [show s + i < v by omega]

/-- A field that lies in the high part of a concatenation. -/
theorem extract_append_high {u v s l : Nat} (x : BitVec u) (y : BitVec v) (h : v ≤ s) :
    (x ++ y).extractLsb' s l = x.extractLsb' (s - v) l := by
  apply BitVec.eq_of_getLsbD_eq
  intro i hi
  simp only [BitVec.getLsbD_extractLsb', BitVec.getLsbD_append]
  simp [show ¬ s + i < v by omega, show s + i - v = s - v + i by omega]

/-- A bit of the low part. -/
theorem bit_append_low {u v s : Nat} (x : BitVec u) (y : BitVec v) (h : s < v) :
    (x ++ y).getLsbD s = y.getLsbD s := by
  simp [BitVec.getLsbD_append, h]

/-- A bit of the high part. -/
theorem bit_append_high {u v s : Nat} (x : BitVec u) (y : BitVec v) (h : v ≤ s) :
    (x ++ y).getLsbD s = x.getLsbD (s - v) := by
  simp [BitVec.getLsbD_append, not_lt.mpr h]

/-- The whole of a bit vector. -/
theorem extract_self {w : Nat} (x : BitVec w) : x.extractLsb' 0 w = x := by
  apply BitVec.eq_of_getLsbD_eq
  intro i hi
  simp [hi]

/-- The low bits of a bit vector. -/
theorem ofNat_toNat_extract {w l : Nat} (b : BitVec w) : BitVec.ofNat l b.toNat = b.extractLsb' 0 l := by
  apply BitVec.eq_of_getLsbD_eq
  intro i hi
  simp [hi]

/-- Each port of the bundle is read from where the encoder lays it (R52, log entry 12). -/
theorem ofBits_toBits (c : Cmd) : Cmd.ofBits c.toBits = c := by
  have hex : ∀ (s l : Nat) (b : BitVec 2701), BitVec.ofNat l (b.toNat >>> s) = b.extractLsb' s l := fun _ _ _ => rfl
  have hbit : ∀ (s : Nat) (b : BitVec 2701), b.toNat.testBit s = b.getLsbD s := fun _ _ => rfl
  cases c
  unfold Cmd.ofBits Cmd.ofNat Cmd.toBits
  simp only [hex, hbit, ofNat_toNat_extract]
  congr 1
  all_goals
    repeat (first
      | rw [extract_append_low _ _ (by decide)]
      | rw [extract_append_high _ _ (by decide)]
      | rw [bit_append_low _ _ (by decide)]
      | rw [bit_append_high _ _ (by decide)])
  all_goals first | exact extract_self _ | (cases ‹Bool› <;> rfl) | simp

/-- The fields of a position frame are read from where the format lays them (R45, R46). -/
theorem positionFields_ofBits (f : PositionFields) :
    PositionFields.ofBits (positionFieldsMsg f ++ f.pi) = f := by
  cases f
  simp only [PositionFields.ofBits, positionFieldsMsg, headerBits, positionMe]
  congr 1
  all_goals
    repeat (first
      | rw [extract_append_low _ _ (by decide)]
      | rw [extract_append_high _ _ (by decide)])
  all_goals exact extract_self _

/-- The fields of an identification frame are read from where the format lays them (R45, R47). -/
theorem identFields_ofBits (f : IdentFields) : IdentFields.ofBits (identFieldsMsg f ++ f.pi) = f := by
  cases f
  simp only [IdentFields.ofBits, identFieldsMsg, headerBits]
  congr 1
  all_goals
    repeat (first
      | rw [extract_append_low _ _ (by decide)]
      | rw [extract_append_high _ _ (by decide)])
  all_goals exact extract_self _

end Sys2Proof.Laws
end

