-- ==== Sys2Proof/Laws/NlFormula.lean ====
section
/-! SUPPORT. The threshold table of Machine/NlTable.lean is exact: for every binary64 latitude other than
0 and below 87 degrees, `cprNl` is the formula of R67 with the real cosine and arc cosine. The proof
encloses cos(π r) between rationals (Taylor polynomial, 20 decimals of π), evaluates the test of R68 on
both sides of every threshold on the grid of 2^-50 degrees, and uses that cos falls in between. -/

namespace Sys2Proof.Laws

open Sys2Proof.Machine Sys2Proof.Reference

-- One theorem at a time, so that the evaluations of the table do not run side by side.
set_option Elab.async false

/-- Taylor polynomial of cos: n terms, from term j on, with current term t. -/
def cosTerms (q2 : ℚ) : Nat → Nat → ℚ → ℚ
  | 0, _, _ => 0
  | n + 1, j, t => t + cosTerms q2 n (j + 1) (-(t * q2) / ((2 * j + 1) * (2 * j + 2)))

def cosPoly (q : ℚ) : ℚ := cosTerms (q * q) 24 0 1

theorem cosTerms_eq (q : ℚ) (n : Nat) : ∀ (j : Nat) (t : ℚ), t = (-1) ^ j * q ^ (2 * j) / (2 * j).factorial →
    cosTerms (q * q) n j t = ∑ i ∈ Finset.range n, (-1) ^ (j + i) * q ^ (2 * (j + i)) / (2 * (j + i)).factorial := by
  induction n with
  | zero => intro j t _; simp [cosTerms]
  | succ n ih =>
    intro j t ht
    rw [cosTerms, ih (j + 1), Finset.sum_range_succ']
    · rw [ht, add_comm]
      congr 1
      apply Finset.sum_congr rfl
      intro i _
      rw [show j + 1 + i = j + (i + 1) by ring]
    · have h : (2 * (j + 1)).factorial = (2 * j + 2) * ((2 * j + 1) * (2 * j).factorial) := by
        rw [show 2 * (j + 1) = 2 * j + 1 + 1 by ring, Nat.factorial_succ, Nat.factorial_succ]
      have h1 : ((2 * j).factorial : ℚ) ≠ 0 := by exact_mod_cast Nat.factorial_ne_zero _
      rw [ht, h]
      push_cast
      field_simp
      ring

theorem cosPoly_cast (q : ℚ) : ((cosPoly q : ℚ) : ℝ) =
    ∑ i ∈ Finset.range 24, (-1) ^ i * (q : ℝ) ^ (2 * i) / (2 * i).factorial := by
  rw [cosPoly, cosTerms_eq q 24 0 1 (by simp)]
  push_cast
  simp

theorem cos_sub_cosPoly (q : ℚ) (h : |q| ≤ 4) :
    |Real.cos q - cosPoly q| ≤ (4 : ℝ) ^ 48 / (48).factorial * 2 := by
  have hq : |(q : ℝ)| ≤ 4 := by exact_mod_cast h
  have hn : ‖((q : ℝ) : ℂ) * Complex.I‖ = |(q : ℝ)| := by simp
  have key := Complex.exp_bound' (x := ((q : ℝ) : ℂ) * Complex.I) (n := 48) (by
    rw [hn, div_le_iff₀ (by positivity)]; norm_num; linarith)
  have hre : (Complex.exp (((q : ℝ) : ℂ) * Complex.I) -
      ∑ m ∈ Finset.range 48, (((q : ℝ) : ℂ) * Complex.I) ^ m / (m.factorial : ℂ)).re = Real.cos q - cosPoly q := by
    rw [Complex.sub_re, Complex.exp_ofReal_mul_I_re, cosPoly_cast, Complex.re_sum]
    congr 1
    rw [show (48 : ℕ) = 2 * 24 from rfl]
    have : ∀ n : ℕ, ∑ i ∈ Finset.range (2 * n), ((((q : ℝ) : ℂ) * Complex.I) ^ i / (i.factorial : ℂ)).re
        = ∑ i ∈ Finset.range n, (-1) ^ i * (q : ℝ) ^ (2 * i) / (2 * i).factorial := by
      intro n
      induction n with
      | zero => simp
      | succ n ih =>
        rw [show 2 * (n + 1) = 2 * n + 1 + 1 by ring, Finset.sum_range_succ, Finset.sum_range_succ, ih,
          Finset.sum_range_succ, add_assoc]
        congr 1
        have e : (((q : ℝ) : ℂ) * Complex.I) ^ (2 * n) = (((-1) ^ n * (q : ℝ) ^ (2 * n) : ℝ) : ℂ) := by
          rw [mul_pow, pow_mul Complex.I, Complex.I_sq]; push_cast; ring
        rw [pow_succ, e]
        have f1 : ∀ k : ℕ, ((k.factorial : ℕ) : ℂ) = ((k.factorial : ℝ) : ℂ) := fun k => by push_cast; rfl
        rw [f1, f1, Complex.div_ofReal_re, Complex.div_ofReal_re, Complex.ofReal_re]
        rw [Complex.re_ofReal_mul, Complex.re_ofReal_mul, Complex.I_re, mul_zero, mul_zero, zero_div, add_zero]
    exact this 24
  calc |Real.cos q - cosPoly q| ≤ ‖Complex.exp (((q : ℝ) : ℂ) * Complex.I) -
      ∑ m ∈ Finset.range 48, (((q : ℝ) : ℂ) * Complex.I) ^ m / (m.factorial : ℂ)‖ := by
        rw [← hre]; exact Complex.abs_re_le_norm _
    _ ≤ _ := key
    _ ≤ _ := by
      rw [hn]; gcongr

theorem cos_near (x : ℝ) (q e : ℚ) (h : |q| ≤ 4) (hx : |x - q| ≤ e) :
    |Real.cos x - cosPoly q| ≤ e + 1 / 10 ^ 30 := by
  have h1 := cos_sub_cosPoly q h
  have h2 := Real.abs_cos_sub_cos_le x q
  have h3 : (4 : ℝ) ^ 48 / (48).factorial * 2 ≤ 1 / 10 ^ 30 := by
    norm_num [Nat.factorial]
  have h4 := abs_sub_le (Real.cos x) (Real.cos q) (cosPoly q : ℝ)
  linarith

/-- 20 decimals of π. -/
def piQ : ℚ := 314159265358979323846 / 10 ^ 20

def piErr : ℚ := 1 / 10 ^ 20

theorem pi_near (r : ℚ) (hr : 0 ≤ r) : |Real.pi * r - ((piQ * r : ℚ) : ℝ)| ≤ ((piErr * r : ℚ) : ℝ) := by
  have h1 := Real.pi_gt_d20
  have h2 := Real.pi_lt_d20
  have hr' : (0 : ℝ) ≤ r := by exact_mod_cast hr
  have h3 : ((piQ : ℚ) : ℝ) = 3.14159265358979323846 := by norm_num [piQ]
  have h4 : ((piErr : ℚ) : ℝ) = 3.14159265358979323847 - 3.14159265358979323846 := by norm_num [piErr]
  push_cast
  rw [← sub_mul, abs_mul, abs_of_nonneg hr', abs_of_nonneg (by rw [h3]; linarith), h3, h4]
  gcongr

theorem cos_pi_near (r : ℚ) (hr : 0 ≤ r) (hr' : r ≤ 1) :
    |Real.cos (Real.pi * r) - cosPoly (piQ * r)| ≤ ((piErr * r + 1 / 10 ^ 30 : ℚ) : ℝ) := by
  have h := cos_near (Real.pi * r) (piQ * r) (piErr * r) (by
    rw [abs_of_nonneg (mul_nonneg (by norm_num [piQ]) hr)]
    calc piQ * r ≤ piQ * 1 := by gcongr; norm_num [piQ]
      _ ≤ 4 := by norm_num [piQ]) (pi_near r hr)
  push_cast at h ⊢
  exact h

/-- Bounds of cos(π r). -/
def cosLow (r : ℚ) : ℚ := cosPoly (piQ * r) - (piErr * r + 1 / 10 ^ 30)
def cosHigh (r : ℚ) : ℚ := cosPoly (piQ * r) + (piErr * r + 1 / 10 ^ 30)

theorem cosLow_le (r : ℚ) (hr : 0 ≤ r) (hr' : r ≤ 1) : ((cosLow r : ℚ) : ℝ) ≤ Real.cos (Real.pi * r) := by
  have h := abs_le.mp (cos_pi_near r hr hr')
  rw [cosLow, Rat.cast_sub]
  linarith [h.1]

theorem le_cosHigh (r : ℚ) (hr : 0 ≤ r) (hr' : r ≤ 1) : Real.cos (Real.pi * r) ≤ ((cosHigh r : ℚ) : ℝ) := by
  have h := abs_le.mp (cos_pi_near r hr hr')
  rw [cosHigh, Rat.cast_add]
  linarith [h.2]

/-- NL >= k at latitude L, without acos. -/
def Cond (k : ℕ) (L : ℝ) : Prop :=
  2 * (1 - Real.cos (Real.pi / 30)) ≤ (1 + Real.cos (Real.pi / 90 * L)) * (1 - Real.cos (2 * Real.pi / k))

/-- The grid of 2^-50 degrees: the step at or below a threshold. -/
def gridBelow (t : ℕ) : ℕ := t * 2 ^ 50 / 10 ^ 30

def rowOk (row : ℕ × ℕ) : Bool :=
  let m := gridBelow row.2
  let lo := mkRat m (90 * 2 ^ 50)
  let hi := mkRat (m + 1 : ℕ) (90 * 2 ^ 50)
  let a := 1 + cosLow lo
  let b := 1 - cosHigh (2 / row.1)
  let a' := 1 + cosHigh hi
  let b' := 1 - cosLow (2 / row.1)
  decide (2 * (1 - cosLow (1 / 30)) ≤ a * b) && decide (0 ≤ a) && decide (0 ≤ b) &&
    decide (a' * b' < 2 * (1 - cosHigh (1 / 30))) && decide (hi ≤ 1) && decide (3 ≤ row.1)

theorem rows_ok : (nlTable.take 57).all rowOk = true := by decide +kernel

theorem cond_mono {k : ℕ} {L L' : ℝ} (h0 : 0 ≤ L) (h : L ≤ L') (h1 : L' ≤ 90) (hc : Cond k L') : Cond k L := by
  have hpi := Real.pi_pos
  have h2 : Real.cos (Real.pi / 90 * L') ≤ Real.cos (Real.pi / 90 * L) := by
    apply Real.cos_le_cos_of_nonneg_of_le_pi
    · positivity
    · nlinarith
    · gcongr
  have h3 : 0 ≤ 1 - Real.cos (2 * Real.pi / k) := by linarith [Real.cos_le_one (2 * Real.pi / k)]
  unfold Cond at *
  nlinarith

theorem rowOk_cond {row : ℕ × ℕ} (h : rowOk row = true) :
    Cond row.1 ((gridBelow row.2 : ℝ) / 2 ^ 50) ∧ ¬ Cond row.1 ((gridBelow row.2 + 1 : ℝ) / 2 ^ 50) ∧
      (gridBelow row.2 + 1 : ℝ) / 2 ^ 50 ≤ 90 := by
  obtain ⟨k, t⟩ := row
  simp only [rowOk, Bool.and_eq_true, decide_eq_true_eq] at h
  set m := gridBelow t with hm
  obtain ⟨⟨⟨⟨⟨h1, h2⟩, h3⟩, h4⟩, h5⟩, h6⟩ := h
  set lo : ℚ := mkRat m (90 * 2 ^ 50) with hlo
  set hi : ℚ := mkRat (m + 1 : ℕ) (90 * 2 ^ 50) with hhi
  have elo : (lo : ℝ) = (m : ℝ) / 2 ^ 50 / 90 := by
    rw [hlo, Rat.mkRat_eq_div]; push_cast; ring
  have ehi : (hi : ℝ) = ((m : ℝ) + 1) / 2 ^ 50 / 90 := by
    rw [hhi, Rat.mkRat_eq_div]; push_cast; ring
  have lohi : lo ≤ hi := by
    have : (lo : ℝ) ≤ hi := by rw [elo, ehi]; gcongr; linarith
    exact_mod_cast this
  have lo0 : 0 ≤ lo := by
    have : (0 : ℝ) ≤ lo := by rw [elo]; positivity
    exact_mod_cast this
  have hk : (3 : ℝ) ≤ k := by exact_mod_cast h6
  have r0 : (0 : ℚ) ≤ 2 / k := by positivity
  have r1 : (2 / k : ℚ) ≤ 1 := by
    rw [div_le_one (by exact_mod_cast (by omega : 0 < k))]
    exact_mod_cast (by omega : 2 ≤ k)
  have c1 := cosLow_le lo lo0 (lohi.trans h5)
  have c2 := le_cosHigh (2 / k) r0 r1
  have c3 := cosLow_le (1 / 30) (by norm_num) (by norm_num)
  have d1 := le_cosHigh hi (lo0.trans lohi) h5
  have d2 := cosLow_le (2 / k) r0 r1
  have d3 := le_cosHigh (1 / 30) (by norm_num) (by norm_num)
  have a1 : Real.pi * lo = Real.pi / 90 * ((m : ℝ) / 2 ^ 50) := by rw [elo]; ring
  have a2 : Real.pi * hi = Real.pi / 90 * (((m : ℝ) + 1) / 2 ^ 50) := by rw [ehi]; ring
  have a3 : Real.pi * ((2 / k : ℚ) : ℝ) = 2 * Real.pi / k := by push_cast; ring
  have a4 : Real.pi * ((1 / 30 : ℚ) : ℝ) = Real.pi / 30 := by push_cast; ring
  rw [a1] at c1
  rw [a2] at d1
  rw [a3] at c2 d2
  rw [a4] at c3 d3
  have h1' : (2 * (1 - (cosLow (1 / 30) : ℝ))) ≤ (1 + cosLow lo) * (1 - cosHigh (2 / k)) := by exact_mod_cast h1
  have h2' : (0 : ℝ) ≤ 1 + cosLow lo := by exact_mod_cast h2
  have h3' : (0 : ℝ) ≤ 1 - cosHigh (2 / k) := by exact_mod_cast h3
  have h4' : (1 + (cosHigh hi : ℝ)) * (1 - cosLow (2 / k)) < 2 * (1 - cosHigh (1 / 30)) := by exact_mod_cast h4
  refine ⟨?_, ?_, ?_⟩
  · unfold Cond
    calc 2 * (1 - Real.cos (Real.pi / 30)) ≤ 2 * (1 - (cosLow (1 / 30) : ℝ)) := by linarith
      _ ≤ _ := h1'
      _ ≤ _ := mul_le_mul (by linarith) (by linarith) h3' (by linarith [Real.neg_one_le_cos (Real.pi / 90 * ((m : ℝ) / 2 ^ 50))])
  · unfold Cond
    rw [not_le]
    refine lt_of_le_of_lt (mul_le_mul (by linarith) (by linarith) ?_ ?_) (lt_of_lt_of_le h4' (by linarith))
    · linarith [Real.cos_le_one (2 * Real.pi / k)]
    · linarith [Real.neg_one_le_cos (Real.pi / 90 * (((m : ℝ) + 1) / 2 ^ 50))]
  · have : (hi : ℝ) ≤ 1 := by exact_mod_cast h5
    rw [ehi] at this
    linarith

/-- The formula of R67 says k <= NL exactly when the condition holds. -/
theorem le_nlFormula_iff {L : ℝ} (h0 : 0 < L) (h87 : L < 87) {k : ℕ} (hk : 2 ≤ k) :
    (k : ℤ) ≤ nlFormula L ↔ Cond k L := by
  have hpi := Real.pi_pos
  have hk' : (2 : ℝ) ≤ k := by exact_mod_cast hk
  have hc2 : 2 * Real.cos (Real.pi / 180 * L) ^ 2 = 1 + Real.cos (Real.pi / 90 * L) := by
    rw [show Real.pi / 90 * L = 2 * (Real.pi / 180 * L) by ring, Real.cos_two_mul]; ring
  have hlow : -Real.cos (Real.pi / 30) ≤ Real.cos (Real.pi / 90 * L) := by
    rw [← Real.cos_pi_sub]
    apply Real.cos_le_cos_of_nonneg_of_le_pi
    · positivity
    · linarith
    · nlinarith
  have h30 : Real.cos (Real.pi / 30) < 1 := by
    rw [← Real.cos_zero]
    apply Real.cos_lt_cos_of_nonneg_of_le_pi <;> linarith
  have hcpos : 0 < Real.cos (Real.pi / 180 * L) ^ 2 := by nlinarith
  set x := 1 - (1 - Real.cos (Real.pi / 30)) / Real.cos (Real.pi / 180 * L) ^ 2 with hx
  have hx1 : x < 1 := by
    rw [hx]
    have : 0 < (1 - Real.cos (Real.pi / 30)) / Real.cos (Real.pi / 180 * L) ^ 2 := div_pos (by linarith) hcpos
    linarith
  have hxm : -1 ≤ x := by
    have : (1 - Real.cos (Real.pi / 30)) / Real.cos (Real.pi / 180 * L) ^ 2 ≤ 2 := by
      rw [div_le_iff₀ hcpos]; linarith
    rw [hx]; linarith
  have hy0 : 0 ≤ 2 * Real.pi / k := by positivity
  have hy1 : 2 * Real.pi / k ≤ Real.pi := by
    rw [div_le_iff₀ (by linarith)]; nlinarith
  have step1 : (k : ℤ) ≤ nlFormula L ↔ Real.arccos x ≤ 2 * Real.pi / k := by
    rw [nlFormula, Int.le_floor, ← hx]
    push_cast
    rw [le_div_iff₀ (Real.arccos_pos.mpr hx1), le_div_iff₀ (by linarith), mul_comm]
  have step2 : Real.arccos x ≤ 2 * Real.pi / k ↔ Real.cos (2 * Real.pi / k) ≤ x := by
    constructor
    · intro h
      rw [← Real.cos_arccos hxm hx1.le]
      exact Real.cos_le_cos_of_nonneg_of_le_pi (Real.arccos_nonneg x) hy1 h
    · intro h
      rw [← Real.arccos_cos hy0 hy1]
      exact Real.arccos_le_arccos h
  rw [step1, step2, Cond, hx, le_sub_comm, div_le_iff₀ hcpos]
  constructor <;> intro h <;> nlinarith

theorem nlFormula_ge_two {L : ℝ} (h0 : 0 < L) (h87 : L < 87) : 2 ≤ nlFormula L := by
  have := (le_nlFormula_iff h0 h87 (le_refl 2)).mpr (by
    have hpi := Real.pi_pos
    have hlow : -Real.cos (Real.pi / 30) ≤ Real.cos (Real.pi / 90 * L) := by
      rw [← Real.cos_pi_sub]
      apply Real.cos_le_cos_of_nonneg_of_le_pi
      · positivity
      · linarith
      · nlinarith
    unfold Cond
    rw [show 2 * Real.pi / ((2 : ℕ) : ℝ) = Real.pi by push_cast; ring, Real.cos_pi]
    linarith)
  exact_mod_cast this

theorem nlFormula_le {L : ℝ} (h0 : 0 < L) (h87 : L < 87) : nlFormula L ≤ 59 := by
  by_contra hn
  have hpi := Real.pi_pos
  have h := (le_nlFormula_iff h0 h87 (by norm_num : 2 ≤ 60)).mp (by push_cast; omega)
  unfold Cond at h
  rw [show 2 * Real.pi / ((60 : ℕ) : ℝ) = Real.pi / 30 by push_cast; ring] at h
  have h30 : Real.cos (Real.pi / 30) < 1 := by
    rw [← Real.cos_zero]
    apply Real.cos_lt_cos_of_nonneg_of_le_pi <;> linarith
  have hL : Real.cos (Real.pi / 90 * L) < 1 := by
    rw [← Real.cos_zero]
    apply Real.cos_lt_cos_of_nonneg_of_le_pi
    · exact le_refl _
    · nlinarith
    · positivity
  nlinarith

/-- Membership in the grid of 2^-50 degrees, or below 4 degrees: every binary64 value below 128. -/
def OnGrid (L : ℚ) : Prop := L < 4 ∨ ∃ m : ℕ, L = m / 2 ^ 50

theorem take_mem : ∀ row ∈ nlTable, row ∈ nlTable.take 57 ∨ row = (2, 87 * 10 ^ 30) := by decide +kernel

theorem grid_ge_four : (nlTable.all fun row => decide (4 * 2 ^ 50 ≤ gridBelow row.2)) = true := by decide +kernel

theorem row_iff {L : ℚ} (h0 : 0 < L) (h87 : L < 87) (hg : OnGrid L) {row : ℕ × ℕ} (hr : row ∈ nlTable) :
    L ≤ mkRat row.2 nlScale ↔ (row.1 : ℤ) ≤ nlFormula L := by
  have h0' : (0 : ℝ) < L := by exact_mod_cast h0
  have h87' : (L : ℝ) < 87 := by exact_mod_cast h87
  rcases take_mem row hr with hm | rfl
  · have hok := List.all_eq_true.mp rows_ok row hm
    have hge := of_decide_eq_true (List.all_eq_true.mp grid_ge_four row hr)
    obtain ⟨c1, c2, c3⟩ := rowOk_cond hok
    have hk : 2 ≤ row.1 := by
      simp only [rowOk, Bool.and_eq_true, decide_eq_true_eq] at hok
      omega
    rw [le_nlFormula_iff h0' h87' hk]
    have hthr : L ≤ mkRat row.2 nlScale ↔ L ≤ (gridBelow row.2 : ℚ) / 2 ^ 50 := by
      rw [Rat.mkRat_eq_div]
      have hfl : (gridBelow row.2 : ℚ) / 2 ^ 50 ≤ (row.2 : ℚ) / nlScale := by
        rw [div_le_div_iff₀ (by positivity) (by norm_num [nlScale])]
        have : gridBelow row.2 * 10 ^ 30 ≤ row.2 * 2 ^ 50 := Nat.div_mul_le_self _ _
        rw [nlScale]
        exact_mod_cast this
      rcases hg with h4 | ⟨m, rfl⟩
      · have : (4 : ℚ) ≤ (gridBelow row.2 : ℚ) / 2 ^ 50 := by
          rw [le_div_iff₀ (by positivity)]; exact_mod_cast hge
        constructor <;> intro _ <;> push_cast <;> linarith
      · constructor
        · intro h
          rw [Int.cast_natCast] at h
          rw [div_le_div_iff_of_pos_right (by positivity)]
          have : m ≤ gridBelow row.2 := by
            rw [gridBelow, Nat.le_div_iff_mul_le (by positivity)]
            rw [div_le_div_iff₀ (by positivity) (by norm_num [nlScale]), nlScale] at h
            exact_mod_cast h
          exact_mod_cast this
        · intro h
          rw [Int.cast_natCast]
          exact h.trans hfl
    rw [hthr]
    constructor
    · intro h
      have h' : (L : ℝ) ≤ (gridBelow row.2 : ℝ) / 2 ^ 50 := by
        have := (Rat.cast_le (K := ℝ)).mpr h
        push_cast at this
        exact this
      refine cond_mono h0'.le h' ?_ c1
      refine le_trans ?_ c3
      gcongr; linarith
    · intro h
      by_contra hn
      apply c2
      refine cond_mono (by positivity) ?_ (by linarith) h
      rcases hg with h4 | ⟨m, rfl⟩
      · exfalso
        apply hn
        have : (4 : ℚ) ≤ (gridBelow row.2 : ℚ) / 2 ^ 50 := by
          rw [le_div_iff₀ (by positivity)]; exact_mod_cast hge
        linarith
      · rw [not_le, div_lt_div_iff_of_pos_right (by positivity)] at hn
        have : gridBelow row.2 + 1 ≤ m := by
          have : gridBelow row.2 < m := by exact_mod_cast hn
          omega
        push_cast
        gcongr
        exact_mod_cast this
  · have h2 := nlFormula_ge_two h0' h87'
    constructor
    · intro _; exact_mod_cast h2
    · intro _
      have : (mkRat ((87 * 10 ^ 30 : ℕ) : ℤ) nlScale : ℚ) = 87 := by decide +kernel
      exact (this.symm ▸ h87.le)

/-- The table gives the formula's value on the grid. -/
theorem cprNl_eq_nlFormula {z : ℕ} {φ : ℚ} (h0 : φ ≠ 0) (h87 : |φ| < 87) (hg : OnGrid |φ|) :
    (cprNl z φ : ℤ) = nlFormula (|φ| : ℚ) := by
  have h0' : 0 < |φ| := abs_pos.mpr h0
  have e1 : (0 : ℝ) < (|φ| : ℚ) := by exact_mod_cast h0'
  have e2 : ((|φ| : ℚ) : ℝ) < 87 := by exact_mod_cast h87
  have l1 := nlFormula_ge_two e1 e2
  have l2 := nlFormula_le e1 e2
  rw [cprNl, if_neg (not_le.mpr h87), if_neg h0,
    List.find?_congr (p₂ := fun row => decide ((row.1 : ℤ) ≤ nlFormula (|φ| : ℚ)))
      (fun row hr => decide_eq_decide.mpr (row_iff h0' h87 hg hr))]
  generalize nlFormula ((|φ| : ℚ) : ℝ) = n at l1 l2
  clear e1 e2
  interval_cases n <;> rfl

theorem abs_val (w : Binary64) : |val w| = magnitude w := by
  have h : 0 ≤ magnitude w := by
    unfold magnitude
    dsimp only
    generalize max (expField w).toNat 1 = e
    split
    · exact Nat.cast_nonneg _
    · rw [Rat.mkRat_eq_div]; positivity
  unfold val
  split
  · rw [abs_neg, abs_of_nonneg h]
  · exact abs_of_nonneg h

theorem significand_lt (w : Binary64) : significand w < 2 ^ 53 := by
  have := (fracField w).isLt
  unfold significand
  split <;> omega

/-- Every binary64 value is below 4 or a multiple of 2^-50. -/
theorem onGrid_val (w : Binary64) : OnGrid |val w| := by
  rw [abs_val]
  have hs := significand_lt w
  unfold magnitude OnGrid
  dsimp only
  generalize max (expField w).toNat 1 = e
  split
  · right
    refine ⟨significand w * 2 ^ (e - 1075) * 2 ^ 50, ?_⟩
    push_cast
    rw [mul_div_assoc]
    norm_num
  · rw [Rat.mkRat_eq_div]
    by_cases he : 1075 - e ≤ 50
    · right
      refine ⟨significand w * 2 ^ (50 - (1075 - e)), ?_⟩
      push_cast
      rw [div_eq_div_iff (by positivity) (by positivity), mul_assoc, ← pow_add]
      congr 2
      omega
    · left
      push_cast
      rw [div_lt_iff₀ (by positivity)]
      calc (significand w : ℚ) < 2 ^ 53 := by exact_mod_cast hs
        _ = 4 * 2 ^ 51 := by norm_num
        _ ≤ 4 * 2 ^ (1075 - e) := by
          gcongr
          · norm_num
          · omega

end Sys2Proof.Laws
end

