-- ==== Sys2Proof/Laws/PerInstr.lean ====
section
/-! SUPPORT. Statements about every row of the operation table, one lemma per constructor of `Instr`. -/

namespace Sys2Proof.Laws

/-- The operation code lies in bits 3:0 of the bundle, as spec/opcode_table.json numbers them. -/
theorem toBits_op (c : Cmd) : c.toBits.extractLsb' 0 4 = c.op := by
  unfold Cmd.toBits
  rw [extract_append_low _ _ (by decide)]
  exact extract_self _

/-- The same, for a bundle whose operation code is known. -/
theorem some_toBits_op (c : Cmd) {code : BitVec 4} (h : c.op = code) :
    some code = some (c.toBits.extractLsb' 0 4) :=
  congrArg some (h.symm.trans (toBits_op c).symm)

/-- The operation code the table gives a row of format CMD (R54); a data format has none. -/
def Opcode.code : Instr → Option (BitVec 4)
  | .altenc _ _ => some 0x1
  | .cprenc _ _ _ _ => some 0x2
  | .crc24 _ => some 0x3
  | .posfrm _ => some 0x4
  | .idfrm _ => some 0x5
  | .ppmmod _ _ => some 0x6
  | .iqconv _ _ _ _ => some 0x7
  | .posiq _ _ _ => some 0x8
  | .idiq _ _ _ => some 0x9
  | .reserved0 => some 0x0
  | .reservedA => some 0xA
  | .reservedB => some 0xB
  | .reservedC => some 0xC
  | .reservedD => some 0xD
  | .reservedE => some 0xE
  | .reservedF => some 0xF
  | .fmtDf17Position _ => none
  | .fmtDf17Ident _ => none
  | .fmtAltcode25ft _ => none
  | .fmtAltcode100ft _ => none
  | .fmtSymbol _ _ => none
  | .fmtSamplePair _ _ => none

/-- The bits 3:0 of a row's encoding are the row's operation code, whatever the operands; a data format is
no bundle and has none (R51, R54). -/
def Opcode.Statement (i : Instr) : Prop :=
  match encode i with
  | .cmd b => Opcode.code i = some (b.extractLsb' 0 4)
  | _ => Opcode.code i = none

theorem Opcode.altenc : ∀ alt sel, Opcode.Statement (.altenc alt sel) :=
  fun _ _ => some_toBits_op _ rfl

theorem Opcode.cprenc : ∀ lat lon par surface, Opcode.Statement (.cprenc lat lon par surface) :=
  fun _ _ _ _ => some_toBits_op _ rfl

theorem Opcode.crc24 : ∀ msg, Opcode.Statement (.crc24 msg) :=
  fun _ => some_toBits_op _ rfl

theorem Opcode.posfrm : ∀ o, Opcode.Statement (.posfrm o) :=
  fun _ => some_toBits_op _ rfl

theorem Opcode.idfrm : ∀ o, Opcode.Statement (.idfrm o) :=
  fun _ => some_toBits_op _ rfl

theorem Opcode.ppmmod : ∀ even odd, Opcode.Statement (.ppmmod even odd) :=
  fun _ odd => by
  cases odd <;> exact some_toBits_op _ rfl

theorem Opcode.iqconv : ∀ mbuf len ampMin ampMax, Opcode.Statement (.iqconv mbuf len ampMin ampMax) :=
  fun _ _ _ _ => some_toBits_op _ rfl

theorem Opcode.posiq : ∀ o ampMin ampMax, Opcode.Statement (.posiq o ampMin ampMax) :=
  fun _ _ _ => some_toBits_op _ rfl

theorem Opcode.idiq : ∀ o ampMin ampMax, Opcode.Statement (.idiq o ampMin ampMax) :=
  fun _ _ _ => some_toBits_op _ rfl

theorem Opcode.reserved0 : Opcode.Statement .reserved0 :=
  some_toBits_op _ rfl

theorem Opcode.reservedA : Opcode.Statement .reservedA :=
  some_toBits_op _ rfl

theorem Opcode.reservedB : Opcode.Statement .reservedB :=
  some_toBits_op _ rfl

theorem Opcode.reservedC : Opcode.Statement .reservedC :=
  some_toBits_op _ rfl

theorem Opcode.reservedD : Opcode.Statement .reservedD :=
  some_toBits_op _ rfl

theorem Opcode.reservedE : Opcode.Statement .reservedE :=
  some_toBits_op _ rfl

theorem Opcode.reservedF : Opcode.Statement .reservedF :=
  some_toBits_op _ rfl

theorem Opcode.fmtDf17Position : ∀ f, Opcode.Statement (.fmtDf17Position f) :=
  fun _ => rfl

theorem Opcode.fmtDf17Ident : ∀ f, Opcode.Statement (.fmtDf17Ident f) :=
  fun _ => rfl

theorem Opcode.fmtAltcode25ft : ∀ n, Opcode.Statement (.fmtAltcode25ft n) :=
  fun _ => rfl

theorem Opcode.fmtAltcode100ft : ∀ n, Opcode.Statement (.fmtAltcode100ft n) :=
  fun _ => rfl

theorem Opcode.fmtSymbol : ∀ b c, Opcode.Statement (.fmtSymbol b c) :=
  fun _ _ => rfl

theorem Opcode.fmtSamplePair : ∀ i q, Opcode.Statement (.fmtSamplePair i q) :=
  fun _ _ => rfl

end Sys2Proof.Laws
end

