-- ==== Sys2Proof/Laws/Samples.lean ====
section
/-! SUPPORT. What a conversion writes: which word stands at each index (R107). -/

namespace Sys2Proof.Laws

open Sys2Proof.Machine

/-- After a conversion of len bytes, words 2k and 2k + 1 are both the value of bit k. -/
theorem convert_pair (s : State) (b : ModBuf) (len : Nat) (lo hi : Sample) {k : Nat} (hl : len ≤ 256)
    (hk : k < 8 * len) :
    wordAt (s.convert b len lo hi).sampBuf (2 * k) = (if b.getMsbD k then hi else lo) ∧
      wordAt (s.convert b len lo hi).sampBuf (2 * k + 1) = (if b.getMsbD k then hi else lo) := by
  unfold State.convert
  rw [State.writeSamples_word _ _ _ (by omega), State.writeSamples_word _ _ _ (by omega)]
  simp only [samples, bitSample, show 2 * k < 16 * len by omega, show 2 * k + 1 < 16 * len by omega,
    if_true, show 2 * k / 2 = k by omega, show (2 * k + 1) / 2 = k by omega, and_self]

/-- SLEN after a conversion of len bytes. -/
theorem convert_slen (s : State) (b : ModBuf) (len : Nat) (lo hi : Sample) (hl : len ≤ 256) :
    (s.convert b len lo hi).slen.toNat = 16 * len := by
  show (BitVec.ofNat 13 (16 * len)).toNat = 16 * len
  rw [BitVec.toNat_ofNat]
  omega

end Sys2Proof.Laws
end

