-- ==== Sys2Proof/Tests/Slice0.lean ====
section
/-! SUPPORT. Tests: the refusals of the checks, the decoding of words written out from the spec's encodings,
one-step checks against the vectors of spec/95_test_vectors.md, and one witness for the hypotheses of each
statement. Expected results come from the spec, never from the model. -/

namespace Sys2Proof.Tests

open Sys2Proof.Machine

-- One theorem at a time, so that the evaluations do not run side by side.
set_option Elab.async false

/-- The result of an operation issued right after reset. -/
def after (i : Instr) : Option State :=
  match exec i State.reset with
  | .next t => some t
  | _ => none

/-- One field of the result. -/
def field {α : Type} (i : Instr) (f : State → α) : Option α :=
  (after i).map f

/-- n words of SAMPBUF from index i on. -/
def words (s : State) (i n : Nat) : List Sample :=
  (List.range n).map fun k => wordAt s.sampBuf (i + k)

/-- The state after reset with the host about to act. -/
def hosted (l : List HostEvent) : State :=
  { State.reset with host := l }

/-- A state in which every register holds a value, SLEN is 16, and the host is about to read. -/
def filled (r : ReadPort) : State :=
  { State.reset with
    host := [.read r], vAlt := true, vCpr := true, vCrc := true, vFe := true, vFo := true, vMod := true
    vSamp := true, vDiag := true, slen := 16 }

/-- 12.34, 56.78, 9999.0 and a NaN, as spec/95_test_vectors.md writes their words. -/
def lat1234 : Binary64 := 0x4028AE147AE147AE#64
def lon5678 : Binary64 := 0x404C63D70A3D70A4#64
def alt9999 : Binary64 := 0x40C3878000000000#64
def aNaN : Binary64 := 0x7FF8000000000000#64

/-- The operands of V-POS-1 (scenario S-1). -/
def report1 : PosReport := ⟨0xABCDEF#24, 5#3, 11#5, 0#2, 0#1, alt9999, 0#1, lat1234, lon5678, false⟩

/-- The operands of V-POS-3: every small field nonzero, negative coordinates. -/
def report3 : PosReport :=
  ⟨0x000001#24, 0#3, 18#5, 3#2, 1#1, 0xC08F400000000000#64, 1#1, 0xC028AE147AE147AE#64,
    0xC04C63D70A3D70A4#64, false⟩

/-- The operands of V-ID-1, the name TEST1234 (scenario S-2). -/
def ident1 : IdReport := ⟨0xABCDEF#24, 5#3, 0x5445535431323334#64⟩

/-- The frames of V-POS-1. -/
def even1 : Frame := 0x8DABCDEF586B703A064BB84949A3#112
def odd1 : Frame := 0x8DABCDEF586B7416EFFAF759BB03#112

/-! ## Well-formedness: each check refuses an ill-formed term -/

/-- The fields of the even frame of V-POS-1. -/
def fields1 : PositionFields :=
  ⟨5, 0xABCDEF, 11, 0, 0, 0x6B7, 0, 0, 7427, 19384, 0x4949A3⟩

/-- The fields of the frame of V-ID-1. -/
def identFields1 : IdentFields := ⟨5, 0xABCDEF, 0, 20, 5, 19, 20, 49, 50, 51, 52, 0x636825⟩

theorem test_wellFormed_accepts :
    (Instr.fmtDf17Position fields1).wellFormed = true ∧ (Instr.fmtDf17Ident identFields1).wellFormed = true ∧
      (Instr.fmtSymbol true false).wellFormed = true ∧ (Instr.fmtSamplePair 7 7).wellFormed = true ∧
      (Instr.iqconv 0 300 0 0).wellFormed = true := by decide +kernel

theorem test_wellFormed_position_parity :
    (Instr.fmtDf17Position { fields1 with pi := 0x4949A2 }).wellFormed = false := by decide +kernel

theorem test_wellFormed_ident_parity :
    (Instr.fmtDf17Ident { identFields1 with char7 := 53 }).wellFormed = false := by decide +kernel

theorem test_wellFormed_symbol : (Instr.fmtSymbol true true).wellFormed = false := by decide

theorem test_wellFormed_samplePair : (Instr.fmtSamplePair 7 8).wellFormed = false := by decide

/-! ## Decoding: words written out from the encodings of the spec -/

theorem test_decode_altenc : decodeTableWord 8 0b0001 = some (.altenc 0 false) := by decide +kernel

theorem test_decode_cprenc : decodeTableWord 8 0b0010 = some (.cprenc 0 0 false false) := by decide +kernel

theorem test_decode_crc24 : decodeTableWord 8 0b0011 = some (.crc24 0) := by decide +kernel

theorem test_decode_posfrm : decodeTableWord 8 0b0100 = some (.posfrm ⟨0, 0, 0, 0, 0, 0, 0, 0, 0, false⟩) := by decide +kernel

theorem test_decode_idfrm : decodeTableWord 8 0b0101 = some (.idfrm ⟨0, 0, 0⟩) := by decide +kernel

theorem test_decode_ppmmod : decodeTableWord 8 0b0110 = some (.ppmmod 0 none) := by decide +kernel

theorem test_decode_iqconv : decodeTableWord 8 0b0111 = some (.iqconv 0 0 0 0) := by decide +kernel

theorem test_decode_posiq : decodeTableWord 8 0b1000 = some (.posiq ⟨0, 0, 0, 0, 0, 0, 0, 0, 0, false⟩ 0 0) := by decide +kernel

theorem test_decode_idiq : decodeTableWord 8 0b1001 = some (.idiq ⟨0, 0, 0⟩ 0 0) := by decide +kernel

theorem test_decode_reserved0 : decodeTableWord 8 0b0000 = some (.reserved0) := by decide +kernel

theorem test_decode_reservedA : decodeTableWord 8 0b1010 = some (.reservedA) := by decide +kernel

theorem test_decode_reservedB : decodeTableWord 8 0b1011 = some (.reservedB) := by decide +kernel

theorem test_decode_reservedC : decodeTableWord 8 0b1100 = some (.reservedC) := by decide +kernel

theorem test_decode_reservedD : decodeTableWord 8 0b1101 = some (.reservedD) := by decide +kernel

theorem test_decode_reservedE : decodeTableWord 8 0b1110 = some (.reservedE) := by decide +kernel

theorem test_decode_reservedF : decodeTableWord 8 0b1111 = some (.reservedF) := by decide +kernel

/-- ALTENC alt=9999.0, sel=1: the altitude above the operation code, the selector above it. -/
theorem test_decode_altenc_operands :
    decodeTableWord 72 0x140C38780000000001 = some (.altenc alt9999 true) := by decide +kernel

/-- CPRENC lat=12.34, lon=56.78, par=1, surface=0. -/
theorem test_decode_cprenc_operands :
    decodeTableWord 200 0x28098C7AE147AE14880515C28F5C28F5C00000000000000002 =
      some (.cprenc lat1234 lon5678 true false) := by decide +kernel

/-- IDIQ icao=0xABCDEF, ca=5, name TEST1234, amp_min=-100, amp_max=4096; the ports between are 0. -/
theorem test_decode_idiq_operands :
    decodeTableWord 2704 (0x9 + 0xABCDEF * 2 ^ 199 + 5 * 2 ^ 223 + 0x5445535431323334 * 2 ^ 235 +
      0xFF9C * 2 ^ 2669 + 4096 * 2 ^ 2685) = none ∧
    decodeTableWord 2701 (0x9 + 0xABCDEF * 2 ^ 199 + 5 * 2 ^ 223 + 0x5445535431323334 * 2 ^ 235 +
      0xFF9C * 2 ^ 2669 + 4096 * 2 ^ 2685) = some (.idiq ident1 (-100) 4096) := by decide +kernel

/-- A bit outside the bits the table gives is no word of the row. -/
theorem test_decode_width : decodeTableWord 8 0x101 = none := by decide

/-- R46, the even frame of V-POS-1 bit by bit: 10001 101, ICAO, 01011 00 0, 0110 1011 0111, 0 0, LAT 7427,
LON 19384, PI. -/
theorem test_decode_position :
    decode (.position 0x8DABCDEF586B703A064BB84949A3#112) = .ok (.fmtDf17Position fields1) := by
  decide +kernel

/-- R47, the frame of V-ID-1: 10001 101, ICAO, 00001 000, then the codes of T E S T 1 2 3 4. -/
theorem test_decode_ident :
    decode (.ident 0x8DABCDEF085054D4C72CF4636825#112) = .ok (.fmtDf17Ident identFields1) := by
  decide +kernel

/-- R48, V-ALT-13 with sel = 1: n = 439 is 0b00110110111. -/
theorem test_decode_altcode25ft :
    decode (.altcode25ft 0b0011010110111#13) = .ok (.fmtAltcode25ft 0b00110110111#11) := by decide

/-- R48, V-ALT-13 with sel = 0: n[11:3] is 0b000110110. -/
theorem test_decode_altcode100ft :
    decode (.altcode100ft 0b0001101100000#13) = .ok (.fmtAltcode100ft 0b000110110#9) := by decide

/-- R49: frame bit 1 is the pair 1,0. -/
theorem test_decode_symbol : decode (.symbol 0b10#2) = .ok (.fmtSymbol true false) := by decide

/-- R50: the I word is the high one. -/
theorem test_decode_samplePair :
    decode (.samplePair 0x10001000#32) = .ok (.fmtSamplePair 4096 4096) := by decide

theorem test_decode_rejects_downlinkFormat :
    decode (.position 0x0DABCDEF586B703A064BB84949A3#112) = .error .downlinkFormat := by decide +kernel

theorem test_decode_rejects_typeCode : decode (.ident even1) = .error .typeCode := by decide +kernel

theorem test_decode_rejects_parity :
    decode (.position 0x8DABCDEF586B703A064BB84949A2#112) = .error .parity := by decide +kernel

theorem test_decode_rejects_altMarkers :
    decode (.altcode25ft 0b0000000000000#13) = .error .altMarkers ∧
      decode (.altcode25ft 0b0000001010000#13) = .error .altMarkers := by decide

theorem test_decode_rejects_altLowBits :
    decode (.altcode100ft 0b0000000001000#13) = .error .altLowBits := by decide

theorem test_decode_rejects_symbol :
    decode (.symbol 0b00#2) = .error .symbol ∧ decode (.symbol 0b11#2) = .error .symbol := by decide

theorem test_decode_rejects_samplePair :
    decode (.samplePair 0x10001001#32) = .error .samplePair := by decide

/-! ## One step, against the vectors of spec/95_test_vectors.md -/

/-- V-ALT-6 and V-ALT-15, sel = 1. -/
theorem test_altenc_25ft :
    field (.altenc 0xC069000000000000#64 true) State.altcode = some 0x0090#13 ∧
      field (.altenc 0x40D8060000000000#64 true) State.altcode = some 0x1010#13 := by decide +kernel

/-- V-ALT-17 with sel = 0, and V-ERR-4. -/
theorem test_altenc_100ft :
    field (.altenc 0x412E848000000000#64 false) State.altcode = some 0x18D0#13 ∧
      field (.altenc aNaN true) State.status = some 0b1110#4 := by decide +kernel

/-- V-CPR-2, odd parity, and V-CPR-13, even parity on the surface. -/
theorem test_cprenc_codes :
    field (.cprenc 0xC028AE147AE147AE#64 0xC04C63D70A3D70A4#64 true false)
        (fun t => (t.cprYz, t.cprXz)) = some (128137#19, 1289#19) ∧
      field (.cprenc lat1234 lon5678 false true) (fun t => (t.cprYz, t.cprXz)) =
        some (118839#19, 310145#19) := by decide +kernel

/-- V-ERR-6. -/
theorem test_cprenc_nonFinite :
    field (.cprenc 0x3FF0000000000000#64 0xFFF0000000000000#64 false false)
      (fun t => (t.status, t.vCpr)) = some (0b1110#4, false) := by decide +kernel

/-- V-CRC-1. -/
theorem test_crc24_checkValue :
    field (.crc24 0x8D4840D6202CC371C32CE0#88) State.crcReg = some 0x576098#24 := by decide +kernel

/-- V-CRC-4. -/
theorem test_crc24_firstBit :
    field (.crc24 0x8000000000000000000000#88) State.crcReg = some 0x3935EA#24 := by decide +kernel

/-- V-POS-3. -/
theorem test_posfrm_frames :
    field (.posfrm report3) (fun t => (t.frameE, t.frameO)) =
      some (0x8800000197010BC5FBB44898F72C#112, 0x8800000197010FE91205098851CD#112) := by decide +kernel

/-- V-ERR-7. -/
theorem test_posfrm_nonFinite :
    field (.posfrm { report1 with lon := aNaN }) (fun t => (t.status, t.vFe)) =
      some (0b1110#4, false) := by decide +kernel

/-- V-ID-3, where EC is 3. -/
theorem test_idfrm_frame : identFrame 3 ident1 = 0x8DABCDEF0B5054D4C72CF4F81335#112 := by decide +kernel

/-- V-ID-8: the neighbours of the letter and digit ranges. -/
theorem test_idfrm_diag :
    field (.idfrm ⟨0xABCDEF#24, 5#3, 0x405B607B2F3A415A#64⟩) (fun t => (t.diag, t.vFe, t.vFo)) =
      some (0x3F#8, true, false) := by decide +kernel

/-- V-MOD-2, bytes 48 to 77. -/
theorem test_ppmmod_one :
    field (.ppmmod even1 none) (fun t => t.modBuf.extractLsb' 1424 240) =
      some 0xA14095A6999AA5A6A9AA6695699A6A555A995569659A9A9565966596995A#240 := by decide +kernel

/-- V-MOD-6, bytes 178 to 207. -/
theorem test_ppmmod_two :
    field (.ppmmod (-1) (some 0)) (fun t => t.modBuf.extractLsb' 384 240) =
      some 0xA14055555555555555555555555555555555555555555555555555555555#240 := by decide +kernel

/-- V-IQ-1. -/
theorem test_iqconv_words :
    field (.iqconv (0xA140#16 ++ 0#2032) 2 (-100) 100) (fun t => (t.slen, words t 0 32)) =
      some (32#13, [100, 100, -100, -100, 100, 100, -100, -100, -100, -100, -100, -100, -100, -100, 100, 100,
        -100, -100, 100, 100, -100, -100, -100, -100, -100, -100, -100, -100, -100, -100, -100, -100]) := by
  decide +kernel

/-- V-IQ-6 and V-ERR-3. -/
theorem test_iqconv_length :
    field (.iqconv 0 257 0 1) (fun t => (t.status, t.vSamp)) = some (0b1010#4, false) := by decide +kernel

/-- V-IQ-3: the words of the byte 0x95. -/
theorem test_posiq_words :
    field (.posiq report1 0 4096) (fun t => (t.slen, words t 800 16)) =
      some (4096#13, [4096, 4096, 0, 0, 0, 0, 4096, 4096, 0, 0, 4096, 4096, 0, 0, 4096, 4096]) := by
  decide +kernel

/-- V-IQ-3: how many words are the maximum. -/
theorem test_posiq_count :
    field (.posiq report1 0 4096) (fun t => Reference.countWords t.sampBuf 4096) = some 464 := by decide +kernel

/-- V-IQ-4, where EC is 0: how many words are the maximum, and the last of them. -/
theorem test_idiq_words :
    Reference.countWords (State.reset.convert (idBuffer 0 ident1) 256 0 4096).sampBuf 4096 = 232 ∧
      samples (idBuffer 0 ident1) 0 4096 1245 = 4096 ∧ samples (idBuffer 0 ident1) 0 4096 1246 = 0 := by decide +kernel

/-- V-IQ-4: DIAG and SLEN; V_FO and V_FE as before. -/
theorem test_idiq_diag :
    field (.idiq ident1 0 4096) (fun t => (t.diag, t.vDiag, t.slen, t.vFe)) =
      some (0#8, true, 4096#13, false) := by decide +kernel

/-- V-ERR-1 and V-ERR-2. -/
theorem test_reserved :
    ∀ i ∈ [Instr.reserved0, .reservedA, .reservedB, .reservedC, .reservedD, .reservedE, .reservedF],
      field i State.status = some 0b0110#4 := by decide +kernel

/-- The first instruction after reset is the word placed where the step takes it. -/
theorem test_withFetchWord :
    step (State.reset.withFetchWord 8 3) = exec (.crc24 0) State.reset.issue := rfl

/-! ## Witnesses: states and operands that meet the hypotheses of the statements -/

theorem witness_OperationCodeSelectsOperation : ∀ k : BitVec 4, (Cmd.idle k).op = k := fun _ => rfl

theorem witness_DecodeEncodeRoundTrip :
    (Instr.posfrm report1).wellFormed = true ∧ (Instr.fmtDf17Position fields1).wellFormed = true := by
  decide +kernel

theorem witness_AcceptedDataAreTheirEncoding :
    decode (.position even1) = .ok (.fmtDf17Position fields1) ∧ ∀ b, Encoded.position even1 ≠ .cmd b :=
  ⟨test_decode_position, fun _ => nofun⟩

theorem witness_BitsAreNumberedFromTheFirstByte : 0 < 8 * 14 ∧ 111 < 8 * 14 := by decide

/-- A normal word, the smallest subnormal and the largest finite word. -/
theorem witness_OperandValueIsBinary64 :
    Reference.Finite alt9999 ∧ Reference.Finite 0x0000000000000001#64 ∧
      Reference.Finite 0x7FEFFFFFFFFFFFFF#64 := by decide

theorem witness_StepRunsTheDecodedCommand :
    (hosted [.command (Cmd.idle 1)]).host = [.command (Cmd.idle 1)] ∧
      (hosted [.command (Cmd.idle 1)]).busy = false ∧ (hosted [.command (Cmd.idle 1)]).rst = false :=
  ⟨rfl, rfl, rfl⟩

theorem witness_CommandNotReadyHasNoEffect_busy :
    ({ hosted [.command (Cmd.idle 1)] with status := 1 } : State).busy = true := rfl

theorem witness_CommandNotReadyHasNoEffect_rst :
    ({ hosted [.command (Cmd.idle 1)] with rst := true } : State).rst = true := rfl

theorem witness_EveryStepTakesOneActionAndGoesOn :
    State.reset.host = [] ∧ (hosted [.read .diag]).host = [.read .diag] ∧
      (hosted [.rst true]).host = [.rst true] := ⟨rfl, rfl, rfl⟩

theorem witness_AltencWritesTheAltitudeCode : Reference.Finite alt9999 ∧ ¬ Reference.Finite aNaN := by
  decide

/-- -625 ft and -600 ft. -/
theorem witness_AltencIsMonotonicInSteps :
    Reference.Finite 0xC083880000000000#64 ∧ Reference.Finite 0xC082C00000000000#64 ∧
      val 0xC082C00000000000#64 = val 0xC083880000000000#64 + 25 := by decide +kernel

theorem witness_CprencWritesTheCodesOfTheFormulas :
    (Reference.Finite lat1234 ∧ Reference.Finite lon5678) ∧
      ¬ (Reference.Finite lat1234 ∧ Reference.Finite aNaN) := by decide

theorem witness_AirborneCodesFitSeventeenBits :
    Reference.Finite lat1234 ∧ Reference.Finite lon5678 := by decide

/-- 87 degrees, the boundary. -/
theorem witness_PolarLongitudeCodesAgree :
    Reference.Finite 0x4055C00000000000#64 ∧ Reference.Finite lon5678 ∧
      87 ≤ |val 0x4055C00000000000#64| := by decide +kernel

/-- 6 degrees, the first even airborne boundary. -/
theorem witness_ZoneBoundaryHasCodeZero :
    Reference.Finite 0x4018000000000000#64 ∧ Reference.Finite lon5678 ∧
      ((val 0x4018000000000000#64 : ℚ) : ℝ) = (1 : ℤ) * Reference.dLat false false := by
  refine ⟨by decide, by decide, ?_⟩
  have h : val 0x4018000000000000#64 = 6 := by decide +kernel
  rw [h]
  norm_num [Reference.dLat, Reference.span, Reference.nz]

/-- A negative and a non-negative coordinate. -/
theorem witness_TruncatingRemainderGivesTheSameCode : (0 : ℚ) < 6 ∧ ¬ (0 : ℚ) ≤ -1 ∧ (0 : ℚ) ≤ 0 := by
  norm_num

theorem witness_PosfrmWritesBothFrames :
    Reference.FiniteReport report1 ∧ ¬ Reference.FiniteReport { report1 with lon := aNaN } := by decide

/-- -1000 ft and 24600 ft, as in V-POS-3 and V-POS-4. -/
theorem witness_PositionAltitudeAliases :
    Reference.FiniteReport report3 ∧ Reference.Finite 0x40D8060000000000#64 ∧
      val 0x40D8060000000000#64 = val report3.alt + 25600 := by decide +kernel

theorem witness_PosfrmFramesAreOfTheFormat : Reference.FiniteReport report1 := by decide

/-- TEST1234 has no replaced character. -/
theorem witness_IdfrmNameDecodesBack :
    ∃ t, exec (.idfrm ident1) State.reset = .next t ∧ t.diag = 0 := ⟨_, rfl, by decide +kernel⟩

theorem witness_ProducedFramesCarryTheirCrc : Reference.FiniteReport report3 := by decide

theorem witness_IqconvWritesTheSamples :
    (0#9).toNat ≤ 256 ∧ (256#9).toNat ≤ 256 ∧ 256 < (257#9).toNat ∧ 256 < (511#9).toNat := by decide

theorem witness_SamplesDetermineTheBits :
    (256#9).toNat ≤ 256 ∧ (0 : Sample) ≠ 4096 ∧ 0 < 8 * (256#9).toNat ∧ 2047 < 8 * (256#9).toNat := by decide

theorem witness_PosiqWritesTheSamplesOfBothFrames :
    Reference.FiniteReport report1 ∧ ¬ Reference.FiniteReport { report1 with alt := aNaN } := by decide

theorem witness_PosiqEqualsTheSequence : Reference.FiniteReport report1 := by decide

theorem witness_CompositesCountOfMaximumWords :
    (0 : Sample) ≠ 4096 ∧ Reference.FiniteReport report1 := by decide

theorem witness_ResetClearsStatusAndValidBits : ReadPort.diag ≠ .status ∧ ReadPort.modBuf 255 ≠ .status := by
  decide

/-- The first and the last bit of a frame. -/
theorem witness_FrameBitsAppearAsPairs : 0 < 112 ∧ 111 < 112 := by decide

/-- The first and the last pause bit, and two different amplitudes. -/
theorem witness_ModbufCountsOfOneBits : 0 < 384 ∧ 383 < 384 ∧ (0 : Sample) ≠ 4096 := by decide

/-- The first and the last character; the first and the last word after the frame. -/
theorem witness_IdiqWritesTheSamplesOfTheFrame :
    0 < 8 ∧ 7 < 8 ∧ 1248 ≤ 1248 ∧ 1248 ≤ 4095 ∧ 4095 < 4096 := by decide

/-- The codes 0, 0xA and 0xF. -/
theorem witness_ReservedRowsEndInIllop :
    ∀ k ∈ [0#4, 0xA#4, 0xF#4], ¬ (1 ≤ (Cmd.idle k).op.toNat ∧ (Cmd.idle k).op.toNat ≤ 9) := by decide

/-- The codes 0, 0xA and 0xF. -/
theorem witness_UnassignedCodeWritesNothing :
    ∀ k ∈ [0#4, 0xA#4, 0xF#4], (hosted [.command (Cmd.idle k)]).busy = false ∧
      (hosted [.command (Cmd.idle k)]).rst = false ∧
      ¬ (1 ≤ (Cmd.idle k).op.toNat ∧ (Cmd.idle k).op.toNat ≤ 9) := by decide

/-- The three error outcomes. -/
theorem witness_ErrorOutcomeChangesStatusAlone :
    ∀ i ∈ [Instr.reserved0, .iqconv 0 257 0 0, .altenc 0x7FF8000000000000#64 true],
      ∃ t, exec i State.reset = .next t ∧ t.err ≠ 0#2 := by
  simp only [List.forall_mem_cons, List.not_mem_nil, false_implies, implies_true, and_true]
  exact ⟨⟨_, rfl, by decide⟩, ⟨State.reset.complete .len, by rfl, by decide⟩,
    ⟨State.reset.complete .nonFinite, by rfl, by decide⟩⟩

theorem witness_OperationsReadNoState : ∃ t, exec (.posfrm report1) State.reset = .next t :=
  ⟨_, rfl⟩

theorem witness_OperationsAreIdempotent : ∃ t, exec (.idfrm ident1) State.reset = .next t := ⟨_, rfl⟩

/-- IDFRM where V_FO is 1. -/
theorem witness_ValidBitsFallOnlyByResetOrIdfrm :
    ∃ t, step { filled .diag with host := [.command (Cmd.idle 5)] } = .next t ∧ t.vFo = false ∧
      ∀ level rest, [HostEvent.command (Cmd.idle 5)] ≠ .rst level :: rest :=
  ⟨_, rfl, rfl, fun _ _ h => by cases h⟩

/-- While BUSY is 1. -/
theorem witness_StatusIsAlwaysReadable :
    ({ hosted [.read .status] with status := 1 } : State).host = [.read .status] := rfl

/-- Every port, the buffers at their last index, SAMPBUF at the last index below SLEN. -/
theorem witness_ValidRegisterReadsReturnTheElement :
    ∀ r ∈ [ReadPort.altcode, .cprYz, .cprXz, .crcReg, .frameE 0, .frameE 13, .frameO 0, .frameO 13, .modBuf 0,
      .modBuf 255, .sampBuf 0, .sampBuf 15, .slen, .diag],
      (filled r).host = [.read r] ∧ (filled r).busy = false ∧ (filled r).valid r = true ∧
        15 < (filled r).slen.toNat := by decide

/-- Every port after reset, and SAMPBUF at index SLEN and at its last index. -/
theorem witness_ReadsWithoutAValueFault :
    (∀ r ∈ [ReadPort.altcode, .cprYz, .cprXz, .crcReg, .frameE 13, .frameO 13, .modBuf 255, .sampBuf 0, .slen,
      .diag], (hosted [.read r]).host = [.read r] ∧ (hosted [.read r]).busy = false ∧
        (hosted [.read r]).valid r = false) ∧
      (filled (.sampBuf 16)).slen.toNat ≤ 16 ∧ (filled (.sampBuf 4095)).slen.toNat ≤ 4095 := by decide

theorem witness_ReadsWhileBusyFault :
    ({ filled .crcReg with status := 1 } : State).busy = true ∧ ReadPort.crcReg ≠ .status := by decide

theorem witness_FrameOHasNoValueAfterIdfrm :
    (Cmd.idle 5).op = 0x5 ∧ (hosted [.command (Cmd.idle 5), .read (.frameO 13)]).busy = false ∧
      (hosted [.command (Cmd.idle 5), .read (.frameO 13)]).rst = false := by decide

theorem witness_ResetPulseLeavesTheResetState :
    ({ filled .diag with host := [.rst true, .rst false] } : State).host = [.rst true, .rst false] := rfl

theorem witness_EveryStepKeepsTheInvariant :
    (hosted [.command (Cmd.idle 3)]).Inv ∧ ∃ t, step (hosted [.command (Cmd.idle 3)]) = .next t :=
  ⟨⟨rfl, nofun, nofun, nofun, nofun, nofun⟩, _, rfl⟩

end Sys2Proof.Tests
end

section
/-! PROOFS. The family of spec/00_scope.md: the numbering of bits (R14), the value of an operand word (R16),
the OPEN parameter NL_ZERO (R11, R67), and the step that takes one action and goes on (R9). -/

namespace Sys2Proof.Scope

open Sys2Proof Sys2Proof.Machine

/-! ### The bits of a byte sequence (R14) -/

/-- Bit k of a byte sequence, counted from its most significant end, read out of the byte that holds it. -/
theorem getMsbD_eq_byteAt_getLsbD {n k : ℕ} (b : BitVec (8 * n)) (hk : k < 8 * n) :
    b.getMsbD k = (byteAt b (k / 8)).getLsbD (7 - k % 8) := by
  have hbit : 7 - k % 8 < 8 := by omega
  have hpos : 8 * n - 8 * (k / 8 + 1) + (7 - k % 8) = 8 * n - 1 - k := by omega
  rw [byteAt_getLsbD, hpos, BitVec.getMsbD]
  simp only [hk, hbit, decide_true, Bool.true_and]

/-- Settles O6: bit k stands at distance 8n - 1 - k from the least significant end, and so does bit
7 - (k mod 8) of byte k div 8. -/
theorem bitsAreNumberedFromTheFirstByte : Obligations.BitsAreNumberedFromTheFirstByte :=
  fun _ b _ hk => getMsbD_eq_byteAt_getLsbD b hk

/-! ### The value of an operand word (R16) -/

/-- Both branches of `magnitude`, the integer one and the fraction, are one power of two with an integer
exponent. -/
theorem magnitude_eq_significand_mul_zpow (w : Binary64) :
    ((magnitude w : ℚ) : ℝ) =
      significand w * 2 ^ (((max (expField w).toNat 1 : ℕ) : ℤ) - 1075) := by
  unfold magnitude
  dsimp only
  generalize max (expField w).toNat 1 = e
  split
  next he =>
    have hexp : (e : ℤ) - 1075 = ((e - 1075 : ℕ) : ℤ) := by omega
    rw [hexp, zpow_natCast]
    push_cast
    rfl
  next he =>
    have hexp : (e : ℤ) - 1075 = -((1075 - e : ℕ) : ℤ) := by omega
    rw [hexp, zpow_neg, zpow_natCast, Rat.mkRat_eq_div, ← div_eq_mul_inv]
    push_cast
    rfl

/-- A zero or a subnormal: no hidden 1, and the exponent of the field value 1. -/
theorem magnitude_of_expField_zero {w : Binary64} (h : expField w = 0) :
    ((magnitude w : ℚ) : ℝ) = ((fracField w).toNat : ℝ) * 2 ^ (-1074 : ℤ) := by
  have hmax : ((max (expField w).toNat 1 : ℕ) : ℤ) - 1075 = -1074 := by simp [h]
  rw [magnitude_eq_significand_mul_zpow, hmax, significand, if_pos h]

/-- A normal word: the hidden 1 stands before the fraction. -/
theorem magnitude_of_expField_ne_zero {w : Binary64} (h : expField w ≠ 0) :
    ((magnitude w : ℚ) : ℝ) =
      (2 ^ 52 + ((fracField w).toNat : ℝ)) * 2 ^ (((expField w).toNat : ℤ) - 1075) := by
  have hpos : (expField w).toNat ≠ 0 := fun h0 => h (BitVec.eq_of_toNat_eq h0)
  have hmax : max (expField w).toNat 1 = (expField w).toNat := by omega
  rw [magnitude_eq_significand_mul_zpow, hmax, significand, if_neg h, Nat.cast_add,
    Nat.cast_pow, Nat.cast_ofNat]

/-- `val` is the magnitude with the sign as a factor. -/
theorem val_eq_sign_mul_magnitude (w : Binary64) :
    ((val w : ℚ) : ℝ) = (if signBit w then -1 else 1) * ((magnitude w : ℚ) : ℝ) := by
  unfold val
  split <;> simp

/-- Settles O7, by the two forms of the magnitude; the sign is the same factor on both sides. -/
theorem operandValueIsBinary64 : Obligations.OperandValueIsBinary64 := by
  intro w _
  rw [val_eq_sign_mul_magnitude, Reference.ieeeValue]
  congr 1
  by_cases h : expField w = 0
  · exact (magnitude_of_expField_zero h).trans (if_pos h).symm
  · exact (magnitude_of_expField_ne_zero h).trans (if_neg h).symm

/-! ### NL_ZERO (R11, R67) -/

/-- Settles O14: the parameter is opaque, so both of its values are looked at. -/
theorem nlZeroIsInItsRange : Obligations.NlZeroIsInItsRange := by
  unfold Obligations.NlZeroIsInItsRange Config.nlZero
  cases Config.nlZeroIs60
  · exact .inl rfl
  · exact .inr rfl

/-! ### One step, one action (R9, R40, R117) -/

/-- Presenting a command answers a next state, whether the core is ready or not, and takes no further
action. -/
theorem present_goes_on (s : State) (c : Cmd) : ∃ t, s.present c = .next t ∧ t.host = s.host := by
  cases hready : s.cmdReady with
  | false => exact ⟨s, s.present_notReady c hready, rfl⟩
  | true =>
    obtain ⟨t, ht⟩ := exec_decodeCmd c s.issue
    obtain ⟨hhost, -, -⟩ := exec_hostSide ht
    exact ⟨t, (s.present_ready c hready).trans ht, hhost⟩

/-- Every action of the host answers a next state and leaves the actions pending after it. -/
theorem act_goes_on (s : State) (e : HostEvent) : ∃ t, s.act e = .next t ∧ t.host = s.host := by
  cases e with
  | command c => exact present_goes_on s c
  | read r => exact ⟨s.hostRead r, rfl, rfl⟩
  | rst level => exact ⟨s.driveRst level, rfl, s.driveRst_host level⟩

/-- Settles O10: no action stops the core, and `advance` drops the one it takes. -/
theorem everyStepTakesOneActionAndGoesOn : Obligations.EveryStepTakesOneActionAndGoesOn := by
  refine fun s => ⟨step_idle, fun e rest h => ?_⟩
  obtain ⟨t, ht, hhost⟩ := act_goes_on (s.withHost rest) e
  exact ⟨t, (advance_cons h).trans ht, hhost⟩

end Sys2Proof.Scope
end

section
/-! PROOFS. The family of spec/10_state.md: the state after reset (R30), what an operation writes and that it
reads no register (R22, R23), the valid bits (R24), host reads without a value (R133), the identification
frame (R93 to R96), and the invariant that every step keeps. -/

namespace Sys2Proof.Registers

open Sys2Proof Sys2Proof.Machine Sys2Proof.Laws

/-! ### The effect of an operation (R22, R23)

The instruction alone chooses which registers are written and with what; the state only receives the
writes. Every statement about all operations is a case analysis over these few effects. -/

/-- The writes of one operation, with STATUS as the last of them. -/
inductive Effect where
  /-- ALTENC: ALTCODE. -/
  | altcode (code : BitVec 13)
  /-- CPRENC: CPR_YZ and CPR_XZ. -/
  | cpr (yz xz : BitVec 19)
  /-- CRC24: CRCREG. -/
  | crc (rem : BitVec 24)
  /-- POSFRM: the two frames of a position report. -/
  | frames (o : PosReport)
  /-- IDFRM: the frame of an identification report and DIAG; V_FO is cleared. -/
  | ident (o : IdReport)
  /-- PPMMOD: MODBUF. -/
  | modBuf (even : Frame) (odd : Option Frame)
  /-- IQCONV and POSIQ: SAMPBUF and SLEN from len bytes of a buffer. -/
  | samples (b : ModBuf) (len : Nat) (hlen : len ≤ Config.modBytes) (lo hi : Sample)
  /-- IDIQ: SAMPBUF and SLEN from a whole buffer, and DIAG. -/
  | samplesDiag (b : ModBuf) (lo hi : Sample) (mask : BitVec 8)
  /-- An error outcome writes STATUS alone (R117). -/
  | failure (e : ErrCode)

/-- The state after the writes. -/
def Effect.apply : Effect → State → State
  | .altcode code, s => (s.writeAltcode code).complete .none
  | .cpr yz xz, s => (s.writeCpr yz xz).complete .none
  | .crc rem, s => (s.writeCrc rem).complete .none
  | .frames o, s =>
    (s.writeFrames (positionFrame Config.nlZero o false) (positionFrame Config.nlZero o true)).complete .none
  | .ident o, s => ((s.writeIdent (identFrame Config.ec o)).writeDiag (nameDiag o.name)).complete .none
  | .modBuf even odd, s => (s.writeModBuf (modBuffer even odd)).complete .none
  | .samples b len _ lo hi, s => (s.convert b len lo hi).complete .none
  | .samplesDiag b lo hi mask, s => ((s.convert b Config.modBytes lo hi).writeDiag mask).complete .none
  | .failure e, s => s.complete e

/-- The effect an instruction has, from its operands; a data format has none (R51). -/
def effect : Instr → Option Effect
  | .altenc alt sel =>
    some (if isFinite alt then .altcode (altCode sel (val alt)) else .failure .nonFinite)
  | .cprenc lat lon par surface =>
    some (if isFinite lat && isFinite lon then
      .cpr (cprLat (val lat) par surface) (cprLon Config.nlZero (val lat) (val lon) par surface)
      else .failure .nonFinite)
  | .crc24 msg => some (.crc (crc24 msg))
  | .posfrm o => some (if posFinite o then .frames o else .failure .nonFinite)
  | .idfrm o => some (.ident o)
  | .ppmmod even odd => some (.modBuf even odd)
  | .iqconv b len lo hi =>
    some (if h : len.toNat ≤ Config.modBytes then .samples b len.toNat h lo hi else .failure .len)
  | .posiq o lo hi =>
    some (if posFinite o then .samples (posBuffer Config.nlZero o) Config.modBytes le_rfl lo hi
      else .failure .nonFinite)
  | .idiq o lo hi => some (.samplesDiag (idBuffer Config.ec o) lo hi (nameDiag o.name))
  | .reserved0 | .reservedA | .reservedB | .reservedC | .reservedD | .reservedE | .reservedF =>
    some (.failure .illop)
  | .fmtDf17Position _ | .fmtDf17Ident _ | .fmtAltcode25ft _ | .fmtAltcode100ft _ | .fmtSymbol _ _
  | .fmtSamplePair _ _ => none

/-- `exec` applies the effect of the instruction, whatever the state. -/
theorem exec_eq_effect (i : Instr) (s : State) :
    exec i s = (effect i).elim refuseFormat fun w => .next (w.apply s) := by
  cases i with
  | altenc alt sel =>
    simp only [exec, execAltenc, effect]
    split <;> rfl
  | cprenc lat lon par surface =>
    simp only [exec, execCprenc, effect]
    split <;> rfl
  | posfrm o =>
    simp only [exec, execPosfrm, effect]
    split <;> rfl
  | iqconv b len lo hi =>
    simp only [exec, execIqconv, effect]
    by_cases hlen : len.toNat ≤ Config.modBytes
    · rw [if_pos hlen, dif_pos hlen]; rfl
    · rw [if_neg hlen, dif_neg hlen]; rfl
  | posiq o lo hi =>
    simp only [exec, execPosiq, effect]
    split <;> rfl
  | _ => rfl

/-- An instruction that answers a next state has an effect, and the next state is what the effect leaves. -/
theorem effect_of_exec {i : Instr} {s t : State} (h : exec i s = .next t) :
    ∃ w, effect i = some w ∧ t = w.apply s := by
  rw [exec_eq_effect] at h
  cases hw : effect i with
  | none => rw [hw] at h; cases h
  | some w => rw [hw] at h; cases h; exact ⟨w, rfl, rfl⟩

/-- An instruction with an effect answers the state it leaves. -/
theorem exec_of_effect {i : Instr} {w : Effect} (h : effect i = some w) (s : State) :
    exec i s = .next (w.apply s) := by
  rw [exec_eq_effect, h]
  rfl

/-- Only IDFRM has the effect that clears V_FO. -/
theorem eq_idfrm_of_effect {i : Instr} {o : IdReport} (h : effect i = some (.ident o)) : i = .idfrm o := by
  cases i with
  | idfrm o' => cases h; rfl
  | altenc | cprenc | posfrm | iqconv | posiq =>
    simp only [effect] at h
    split at h <;> cases h
  | _ => cases h

/-- Every effect ends with BUSY 0. -/
@[simp] theorem Effect.apply_busy (w : Effect) (s : State) : (w.apply s).busy = false := by
  cases w <;> exact State.complete_busy _ _

/-- Below SLEN, the words a conversion leaves do not depend on the state before it. -/
theorem convert_word_eq (s u : State) (b : ModBuf) {len : Nat} (hlen : len ≤ 256) (lo hi : Sample) {i : Nat}
    (hi' : i < (s.convert b len lo hi).slen.toNat) :
    wordAt (s.convert b len lo hi).sampBuf i = wordAt (u.convert b len lo hi).sampBuf i := by
  rw [convert_slen s b len lo hi hlen] at hi'
  unfold State.convert
  rw [State.writeSamples_word _ _ _ (by omega), State.writeSamples_word _ _ _ (by omega),
    if_pos hi', if_pos hi']

/-- Settles O42: both states receive the same effect. A register outside it is left as it was in both; the
words of SAMPBUF below SLEN are written alike. -/
theorem operationsReadNoState : Obligations.OperationsReadNoState := by
  intro i s u t h
  obtain ⟨w, hw, rfl⟩ := effect_of_exec h
  refine ⟨w.apply u, exec_of_effect hw u, ?_⟩
  cases w with
  | samples b len hlen lo hi =>
    have hwords := fun k => convert_word_eq s u b hlen lo hi (i := k)
    exact ⟨rfl, .inr ⟨rfl, rfl⟩, .inr ⟨rfl, rfl⟩, .inr ⟨rfl, rfl⟩, .inr ⟨rfl, rfl⟩, .inr ⟨rfl, rfl⟩,
      .inr ⟨rfl, rfl⟩, .inr ⟨rfl, rfl⟩, .inl ⟨hwords, rfl, rfl⟩, .inr ⟨rfl, rfl⟩⟩
  | samplesDiag b lo hi mask =>
    have hwords := fun k => convert_word_eq s u b (len := Config.modBytes) le_rfl lo hi (i := k)
    exact ⟨rfl, .inr ⟨rfl, rfl⟩, .inr ⟨rfl, rfl⟩, .inr ⟨rfl, rfl⟩, .inr ⟨rfl, rfl⟩, .inr ⟨rfl, rfl⟩,
      .inr ⟨rfl, rfl⟩, .inr ⟨rfl, rfl⟩, .inl ⟨hwords, rfl, rfl⟩, .inl ⟨rfl, rfl⟩⟩
  | _ => simp [Effect.apply]

/-! ### What a step can do (R41, R128, R130) -/

/-- The next states of a step, by the action it takes. -/
inductive Taken (s : State) : State → Prop
  /-- No action is pending. -/
  | idle (hhost : s.host = []) : Taken s s
  /-- A command is issued and has its effect. -/
  | issued {c : Cmd} {rest : List HostEvent} {w : Effect} (hhost : s.host = .command c :: rest)
      (hw : effect (decodeCmd c) = some w) : Taken s (w.apply (s.withHost rest).issue)
  /-- A command is presented while the core is not ready. -/
  | lost {c : Cmd} {rest : List HostEvent} (hhost : s.host = .command c :: rest) : Taken s (s.withHost rest)
  /-- The host reads. -/
  | read {r : ReadPort} {rest : List HostEvent} (hhost : s.host = .read r :: rest) :
      Taken s ((s.withHost rest).hostRead r)
  /-- The host drives `rst`. -/
  | rst {level : Bool} {rest : List HostEvent} (hhost : s.host = .rst level :: rest) :
      Taken s ((s.withHost rest).driveRst level)

/-- A step of a state with a pending action is that action. -/
theorem step_cons {s : State} {e : HostEvent} {rest : List HostEvent} (hhost : s.host = e :: rest) :
    step s = (s.withHost rest).act e :=
  advance_cons hhost

/-- The inversion of `step`. -/
theorem taken_of_step {s t : State} (h : step s = .next t) : Taken s t := by
  cases hhost : s.host with
  | nil =>
    rw [step, step_idle hhost] at h
    cases h
    exact .idle hhost
  | cons e rest =>
    rw [step_cons hhost] at h
    cases e with
    | command c =>
      change (s.withHost rest).present c = .next t at h
      cases hready : (s.withHost rest).cmdReady with
      | false =>
        rw [State.present_notReady c hready] at h
        cases h
        exact .lost hhost
      | true =>
        rw [State.present_ready c hready] at h
        obtain ⟨w, hw, rfl⟩ := effect_of_exec h
        exact .issued hhost hw
    | read r => cases h; exact .read hhost
    | rst level => cases h; exact .rst hhost

/-! ### The valid bits (R22, R24) -/

/-- Every valid bit of s but V_FO is still 1 in t. -/
structure KeepsValid (s t : State) : Prop where
  /-- V_ALT. -/
  alt : s.vAlt → t.vAlt
  /-- V_CPR. -/
  cpr : s.vCpr → t.vCpr
  /-- V_CRC. -/
  crc : s.vCrc → t.vCrc
  /-- V_FE. -/
  fe : s.vFe → t.vFe
  /-- V_MOD. -/
  mod : s.vMod → t.vMod
  /-- V_SAMP. -/
  samp : s.vSamp → t.vSamp
  /-- V_DIAG. -/
  diag : s.vDiag → t.vDiag

/-- An effect sets valid bits and clears none but V_FO. -/
theorem Effect.apply_keepsValid (w : Effect) (s : State) : KeepsValid s (w.apply s) := by
  cases w with
  | altcode => exact ⟨fun _ => rfl, id, id, id, id, id, id⟩
  | cpr => exact ⟨id, fun _ => rfl, id, id, id, id, id⟩
  | crc => exact ⟨id, id, fun _ => rfl, id, id, id, id⟩
  | frames => exact ⟨id, id, id, fun _ => rfl, id, id, id⟩
  | ident => exact ⟨id, id, id, fun _ => rfl, id, id, fun _ => rfl⟩
  | modBuf => exact ⟨id, id, id, id, fun _ => rfl, id, id⟩
  | samples => exact ⟨id, id, id, id, id, fun _ => rfl, id⟩
  | samplesDiag => exact ⟨id, id, id, id, id, fun _ => rfl, fun _ => rfl⟩
  | failure => exact ⟨id, id, id, id, id, id, id⟩

/-- V_FO falls by IDFRM alone. -/
theorem Effect.apply_vFo (w : Effect) {s : State} (h : s.vFo) : (w.apply s).vFo ∨ ∃ o, w = .ident o := by
  cases w with
  | ident o => exact .inr ⟨o, rfl⟩
  | frames o => exact .inl rfl
  | _ => exact .inl h

/-- A step that does not drive `rst` keeps every valid bit but V_FO. -/
theorem Taken.keepsValid {s t : State} (h : Taken s t) (hrst : ∀ level rest, s.host ≠ .rst level :: rest) :
    KeepsValid s t := by
  cases h with
  | @issued c rest w =>
    obtain ⟨alt, cpr, crc, fe, mod, samp, diag⟩ := w.apply_keepsValid (s.withHost rest).issue
    exact ⟨alt, cpr, crc, fe, mod, samp, diag⟩
  | rst hhost => exact absurd hhost (hrst _ _)
  | _ => exact ⟨id, id, id, id, id, id, id⟩

/-- A step that does not drive `rst` keeps V_FO unless it takes an IDFRM. -/
theorem Taken.vFo {s t : State} (h : Taken s t) (hrst : ∀ level rest, s.host ≠ .rst level :: rest)
    (hfo : s.vFo) : t.vFo ∨ ∃ c rest o, s.host = .command c :: rest ∧ decodeCmd c = .idfrm o := by
  cases h with
  | @issued c rest w hhost hw =>
    rcases w.apply_vFo (s := (s.withHost rest).issue) hfo with hkept | ⟨o, rfl⟩
    · exact .inl hkept
    · exact .inr ⟨c, rest, o, hhost, eq_idfrm_of_effect hw⟩
  | rst hhost => exact absurd hhost (hrst _ _)
  | _ => exact .inl hfo

/-- Settles O44, by the action the step takes. -/
theorem validBitsFallOnlyByResetOrIdfrm : Obligations.ValidBitsFallOnlyByResetOrIdfrm := by
  intro s t h hrst
  have htaken := taken_of_step h
  obtain ⟨alt, cpr, crc, fe, mod, samp, diag⟩ := htaken.keepsValid hrst
  exact ⟨alt, cpr, crc, fe, mod, samp, diag, htaken.vFo hrst⟩

/-! ### The state after reset, and reads without a value (R24, R30, R133) -/

/-- A read of a result register whose valid bit is 0, while BUSY is 0. -/
theorem readPort_of_not_valid {s : State} {r : ReadPort} (hr : r ≠ .status) (hbusy : s.busy = false)
    (hvalid : s.valid r = false) : s.readPort r = .fault (.readInvalid r) := by
  simp [State.readPort_eq hr, hbusy, hvalid]

/-- A read of a word of a valid SAMPBUF at index SLEN or above, while BUSY is 0. -/
theorem readPort_of_slen_le {s : State} {i : Fin 4096} (hbusy : s.busy = false) (hvalid : s.vSamp = true)
    (hi : s.slen.toNat ≤ i.val) : s.readPort (.sampBuf i) = .fault (.readPastSlen i) := by
  have hport : s.valid (.sampBuf i) = true := hvalid
  simp [State.readPort_eq, hbusy, hport, State.content, hi]

/-- The step that takes a read keeps its result and nothing else. -/
theorem step_read {s : State} {r : ReadPort} {rest : List HostEvent} (hhost : s.host = .read r :: rest) :
    step s = .next { s with host := rest, readData := some (s.readPort r) } := by
  have hport : (s.withHost rest).readPort r = s.readPort r := by
    simp only [State.readPort, State.withHost_status, State.withHost_busy, State.withHost_valid,
      State.withHost_content]
  rw [step_cons hhost, ← hport]
  rfl

/-- No result register holds a value after reset. -/
theorem reset_valid {r : ReadPort} (hr : r ≠ .status) : State.reset.valid r = false := by
  cases r with
  | status => exact absurd rfl hr
  | _ => rfl

/-- Settles O1: every valid bit is 0 and so is BUSY, so no read has a value. -/
theorem resetClearsStatusAndValidBits : Obligations.ResetClearsStatusAndValidBits :=
  ⟨rfl, rfl, rfl, rfl, rfl, rfl, rfl, rfl, rfl,
    fun _ hr => readPort_of_not_valid hr rfl (reset_valid hr)⟩

/-- Settles O47: the valid bit is 0, or SAMPBUF is valid and the word is at index SLEN or above. -/
theorem readsWithoutAValueFault : Obligations.ReadsWithoutAValueFault := by
  intro s rest r hhost hbusy hnone
  rw [step_read hhost]
  have hinvalid (hr : r ≠ .status) (hvalid : s.valid r = false) :
      ∃ f : ReadFault, (f = .readInvalid r ∨ ∃ i, r = .sampBuf i ∧ f = .readPastSlen i) ∧
        s.readPort r = .fault f :=
    ⟨_, .inl rfl, readPort_of_not_valid hr hbusy hvalid⟩
  have hread : ∃ f : ReadFault, (f = .readInvalid r ∨ ∃ i, r = .sampBuf i ∧ f = .readPastSlen i) ∧
      s.readPort r = .fault f := by
    cases r with
    | status => exact hnone.elim
    | sampBuf i =>
      cases hsamp : s.vSamp with
      | false => exact hinvalid nofun hsamp
      | true =>
        have hi : s.slen.toNat ≤ i.val := hnone.resolve_left (by simp [hsamp])
        exact ⟨_, .inr ⟨i, rfl, rfl⟩, readPort_of_slen_le hbusy hsamp hi⟩
    | _ => exact hinvalid nofun hnone
  obtain ⟨f, hf, hport⟩ := hread
  exact ⟨f, hf, by rw [hport]⟩

/-- The decoder at the code of IDFRM. -/
theorem decodeCmd_idfrm {c : Cmd} (h : c.op = 0x5) : decodeCmd c = .idfrm c.idReport := by
  simp [decodeCmd, h]

/-- The step that issues a command. -/
theorem step_command {s : State} {c : Cmd} {rest : List HostEvent} {w : Effect}
    (hhost : s.host = .command c :: rest) (hbusy : s.busy = false) (hrst : s.rst = false)
    (hw : effect (decodeCmd c) = some w) : step s = .next (w.apply (s.withHost rest).issue) := by
  have hready : (s.withHost rest).cmdReady = true := (State.cmdReady_iff _).mpr ⟨hbusy, hrst⟩
  rw [step_cons hhost]
  exact (State.present_ready c hready).trans (exec_of_effect hw _)

/-- Settles O49: the IDFRM clears V_FO, so the read that follows finds FRAME_O without a value. -/
theorem frameOHasNoValueAfterIdfrm : Obligations.FrameOHasNoValueAfterIdfrm := by
  intro s c i rest hhost hbusy hrst hop
  have hw : effect (decodeCmd c) = some (.ident c.idReport) := by rw [decodeCmd_idfrm hop, effect]
  have hread := readPort_of_not_valid (r := .frameO i) (by nofun)
    (Effect.apply_busy (.ident c.idReport) (s.withHost (.read (.frameO i) :: rest)).issue) rfl
  exact ⟨_, step_command hhost hbusy hrst hw, by rw [step_read rfl, hread]⟩

/-! ### Bytes and fields of a concatenation (R14, R44) -/

/-- A field that lies across the border of a concatenation. -/
theorem extract_append_across {u v s a b : Nat} (x : BitVec u) (y : BitVec v) (h : s + b = v) :
    (x ++ y).extractLsb' s (a + b) = x.extractLsb' 0 a ++ y.extractLsb' s b := by
  apply BitVec.eq_of_getLsbD_eq
  intro i hi
  simp only [BitVec.getLsbD_extractLsb', BitVec.getLsbD_append]
  by_cases hib : i < b
  · simp [hib, hi, show s + i < v by omega]
  · simp [hib, hi, show ¬ s + i < v by omega, show i - b < a by omega, show s + i - v = i - b by omega]

/-- A byte of the left part of a concatenation. -/
theorem byteAt_append_left {u v i : Nat} (x : BitVec u) (y : BitVec v) (h : 8 * (i + 1) ≤ u) :
    byteAt (x ++ y) i = byteAt x i := by
  rw [byteAt, extract_append_high _ _ (by omega), byteAt]
  congr 1
  omega

/-- A byte of the right part of a concatenation whose left part is n bytes long. -/
theorem byteAt_append_right {u v i : Nat} (n : Nat) (x : BitVec u) (y : BitVec v) (hu : u = 8 * n) (hn : n ≤ i)
    (hi : 8 * (i + 1) ≤ u + v) : byteAt (x ++ y) i = byteAt y (i - n) := by
  rw [byteAt, extract_append_low _ _ (by omega), byteAt]
  congr 1
  omega

/-! ### The frames the core assembles (R32, R45, R83, R87) -/

/-- A frame begins with its message. -/
theorem byteAt_frameOf (m : Msg) {i : Nat} (h : i < 11) : byteAt (frameOf m) i = byteAt m i :=
  byteAt_append_left m (crc24 m) (by omega)

/-- The first 88 bits of a frame are its message. -/
theorem frameOf_msg (m : Msg) : (frameOf m).extractLsb' 24 88 = m :=
  (extract_append_high m (crc24 m) le_rfl).trans (extract_self m)

/-- The last 24 bits of a frame are the CRC of its message. -/
theorem frameOf_crc (m : Msg) : (frameOf m).extractLsb' 0 24 = crc24 m :=
  (extract_append_low m (crc24 m) le_rfl).trans (extract_self _)

/-- A frame whose message begins with DF meets the invariant's condition on frames. -/
theorem frameOk_frameOf {m : Msg} (hdf : m.extractLsb' 83 5 = Config.df) : frameOk (frameOf m) := by
  refine ⟨(extract_append_high m (crc24 m) (by omega)).trans hdf, ?_⟩
  rw [frameOf_crc, frameOf_msg]

/-- The header begins with DF. -/
theorem headerBits_df (ca : BitVec 3) (icao : BitVec 24) : (headerBits ca icao).extractLsb' 27 5 = Config.df := by
  change (Config.df ++ ca ++ icao).extractLsb' 27 5 = _
  rw [extract_append_high _ _ (by omega), extract_append_high _ _ (by omega)]
  rfl

theorem frameOk_positionFrame (nlZero : Nat) (o : PosReport) (par : Bool) :
    frameOk (positionFrame nlZero o par) :=
  frameOk_frameOf ((extract_append_high _ _ (by omega)).trans (headerBits_df o.ca o.icao))

theorem frameOk_identFrame (ec : BitVec 3) (o : IdReport) : frameOk (identFrame ec o) := by
  refine frameOk_frameOf ?_
  change (headerBits o.ca o.icao ++ Config.idTc ++ ec ++ nameBits o.name).extractLsb' 83 5 = _
  rw [extract_append_high _ _ (by omega), extract_append_high _ _ (by omega),
    extract_append_high _ _ (by omega)]
  exact headerBits_df o.ca o.icao

/-- Above the time bit, the two frames of a report have the same message. -/
theorem positionMsg_bit_eq (nlZero : Nat) (o : PosReport) (p q : Bool) {k : Nat} (hk : 36 ≤ k) :
    (positionMsg nlZero o p).getLsbD k = (positionMsg nlZero o q).getLsbD k := by
  unfold positionMsg positionMe
  by_cases hme : k < 56
  · rw [bit_append_low _ _ hme, bit_append_low _ _ hme]
    simp (disch := omega) only [bit_append_high]
  · rw [bit_append_high _ _ (by omega), bit_append_high _ _ (by omega)]

/-- The F flag of a position frame is its parity. -/
theorem positionFrame_flag (nlZero : Nat) (o : PosReport) (par : Bool) :
    (positionFrame nlZero o par).getLsbD 58 = par := by
  have hmsg : (positionMsg nlZero o par).getLsbD 34 = par := by
    unfold positionMsg positionMe
    rw [bit_append_low _ _ (by omega), bit_append_high _ _ (by omega), bit_append_high _ _ (by omega),
      bit_append_low _ _ (by omega)]
    cases par <;> rfl
  exact (bit_append_high _ _ (by omega)).trans hmsg

theorem framePairOk_positionFrame (nlZero : Nat) (o : PosReport) :
    framePairOk (positionFrame nlZero o false) (positionFrame nlZero o true) := by
  refine ⟨?_, positionFrame_flag nlZero o false, positionFrame_flag nlZero o true⟩
  have hbits (par : Bool) : (positionFrame nlZero o par).extractLsb' 64 48 =
      (positionMsg nlZero o par).extractLsb' 40 48 := extract_append_high _ _ (by omega)
  rw [hbits, hbits]
  apply BitVec.eq_of_getLsbD_eq
  intro i _
  simp only [BitVec.getLsbD_extractLsb', positionMsg_bit_eq nlZero o false true (show 36 ≤ 40 + i by omega)]

/-! ### The buffers the core writes (R33, R34) -/

@[simp] theorem byteAt_pause (n i : Nat) : byteAt (pause n) i = 0 := by
  simp [byteAt, pause]

section ModBuffer

variable (even : Frame) (odd : Option Frame) {i : Nat}

theorem byteAt_modBuffer_lead (h : i < 48) : byteAt (modBuffer even odd) i = 0 := by
  change byteAt (pause 48 ++ Config.preamble ++ modFrame even ++ pause 100 ++ modTail odd) i = 0
  rw [byteAt_append_left _ _ (by omega), byteAt_append_left _ _ (by omega),
    byteAt_append_left _ _ (by omega), byteAt_append_left _ _ (by omega), byteAt_pause]

theorem byteAt_modBuffer_preamble (h : 48 ≤ i) (h' : i < 50) :
    byteAt (modBuffer even odd) i = byteAt Config.preamble (i - 48) := by
  change byteAt (pause 48 ++ Config.preamble ++ modFrame even ++ pause 100 ++ modTail odd) i = _
  rw [byteAt_append_left _ _ (by omega), byteAt_append_left _ _ (by omega),
    byteAt_append_left _ _ (by omega), byteAt_append_right 48 _ _ rfl h (by omega)]

theorem byteAt_modBuffer_mid (h : 78 ≤ i) (h' : i < 178) : byteAt (modBuffer even odd) i = 0 := by
  change byteAt (pause 48 ++ Config.preamble ++ modFrame even ++ pause 100 ++ modTail odd) i = 0
  rw [byteAt_append_left _ _ (by omega), byteAt_append_right 78 _ _ rfl h (by omega), byteAt_pause]

theorem byteAt_modBuffer_tail (h : 178 ≤ i) (h' : i < 256) :
    byteAt (modBuffer even odd) i = byteAt (modTail odd) (i - 178) := by
  change byteAt (pause 48 ++ Config.preamble ++ modFrame even ++ pause 100 ++ modTail odd) i = _
  rw [byteAt_append_right 178 _ _ rfl h (by omega)]

/-- The trailing pause, with or without an odd frame. -/
theorem byteAt_modTail_trail (h : 30 ≤ i) (h' : i < 78) : byteAt (modTail odd) i = 0 := by
  cases odd with
  | none => exact byteAt_pause 78 i
  | some o =>
    change byteAt (Config.preamble ++ modFrame o ++ pause 48) i = 0
    rw [byteAt_append_right 30 _ _ rfl h (by omega), byteAt_pause]

theorem modBufOk_modBuffer : modBufOk (modBuffer even odd) := by
  refine ⟨fun k => byteAt_modBuffer_lead even odd k.isLt, ?_, ?_, fun k => ?_, fun k => ?_⟩
  · rw [byteAt_modBuffer_preamble even odd (by omega) (by omega)]
    rfl
  · rw [byteAt_modBuffer_preamble even odd (by omega) (by omega)]
    rfl
  · exact byteAt_modBuffer_mid even odd (by omega) (by omega)
  · rw [byteAt_modBuffer_tail even odd (by omega) (by omega)]
    exact byteAt_modTail_trail odd (by omega) (by omega)

end ModBuffer

theorem samplesOk_convert (s : State) (b : ModBuf) {len : Nat} (hlen : len ≤ 256) (lo hi : Sample) :
    samplesOk (s.convert b len lo hi).sampBuf (s.convert b len lo hi).slen := by
  have hslen := convert_slen s b len lo hi hlen
  refine ⟨by omega, by omega, fun k hk => ?_⟩
  obtain ⟨hI, hQ⟩ := convert_pair s b len lo hi hlen (k := k) (by omega)
  exact hI.trans hQ.symm

/-! ### The invariant -/

/-- Settles O51: BUSY is 0, and no valid bit is 1. -/
theorem invariantHoldsAtReset : Obligations.InvariantHoldsAtReset :=
  ⟨rfl, nofun, nofun, nofun, nofun, nofun⟩

/-- The invariant does not read the host side of the interface. -/
theorem inv_withHost {s : State} (hs : s.Inv) (rest : List HostEvent) : (s.withHost rest).Inv :=
  ⟨hs.notBusy, hs.frameE, hs.frameO, hs.frames, hs.modBuf, hs.samples⟩

theorem inv_hostRead {s : State} (hs : s.Inv) (r : ReadPort) : (s.hostRead r).Inv :=
  ⟨hs.notBusy, hs.frameE, hs.frameO, hs.frames, hs.modBuf, hs.samples⟩

/-- Asserting `rst` leaves the registers and valid bits of the reset state. -/
theorem inv_clear (s : State) (level : Bool) : ({ s.clear with rst := level } : State).Inv :=
  have hreset : State.reset.Inv := invariantHoldsAtReset
  ⟨hreset.notBusy, hreset.frameE, hreset.frameO, hreset.frames, hreset.modBuf, hreset.samples⟩

theorem inv_driveRst {s : State} (hs : s.Inv) (level : Bool) : (s.driveRst level).Inv := by
  rcases s.driveRst_cases level with ⟨-, -, hsame⟩ | hcleared
  · rw [hsame]
    exact hs
  · rw [hcleared]
    exact inv_clear s level

theorem inv_complete {s : State} (hs : s.Inv) (e : ErrCode) : (s.complete e).Inv :=
  ⟨s.complete_busy e, hs.frameE, hs.frameO, hs.frames, hs.modBuf, hs.samples⟩

theorem inv_writeAltcode {s : State} (hs : s.Inv) (code : BitVec 13) : (s.writeAltcode code).Inv :=
  ⟨hs.notBusy, hs.frameE, hs.frameO, hs.frames, hs.modBuf, hs.samples⟩

theorem inv_writeCpr {s : State} (hs : s.Inv) (yz xz : BitVec 19) : (s.writeCpr yz xz).Inv :=
  ⟨hs.notBusy, hs.frameE, hs.frameO, hs.frames, hs.modBuf, hs.samples⟩

theorem inv_writeCrc {s : State} (hs : s.Inv) (crc : BitVec 24) : (s.writeCrc crc).Inv :=
  ⟨hs.notBusy, hs.frameE, hs.frameO, hs.frames, hs.modBuf, hs.samples⟩

theorem inv_writeDiag {s : State} (hs : s.Inv) (mask : BitVec 8) : (s.writeDiag mask).Inv :=
  ⟨hs.notBusy, hs.frameE, hs.frameO, hs.frames, hs.modBuf, hs.samples⟩

theorem inv_writeFrames {s : State} (hs : s.Inv) {e o : Frame} (he : frameOk e) (ho : frameOk o)
    (hpair : framePairOk e o) : (s.writeFrames e o).Inv :=
  ⟨hs.notBusy, fun _ => he, fun _ => ho, fun _ => ⟨rfl, hpair⟩, hs.modBuf, hs.samples⟩

/-- V_FO is cleared, so nothing is claimed of FRAME_O. -/
theorem inv_writeIdent {s : State} (hs : s.Inv) {f : Frame} (hf : frameOk f) : (s.writeIdent f).Inv :=
  ⟨hs.notBusy, fun _ => hf, nofun, nofun, hs.modBuf, hs.samples⟩

theorem inv_writeModBuf {s : State} (hs : s.Inv) {b : ModBuf} (hb : modBufOk b) : (s.writeModBuf b).Inv :=
  ⟨hs.notBusy, hs.frameE, hs.frameO, hs.frames, fun _ => hb, hs.samples⟩

theorem inv_convert {s : State} (hs : s.Inv) (b : ModBuf) {len : Nat} (hlen : len ≤ 256) (lo hi : Sample) :
    (s.convert b len lo hi).Inv :=
  ⟨hs.notBusy, hs.frameE, hs.frameO, hs.frames, hs.modBuf, fun _ => samplesOk_convert s b hlen lo hi⟩

/-- STATUS is overwritten at completion, so the issue of the command leaves no trace. -/
theorem Effect.apply_issue (w : Effect) (s : State) : w.apply s.issue = w.apply s := by
  cases w <;> rfl

/-- An effect makes valid only what meets the condition of its register. -/
theorem Effect.inv_apply (w : Effect) {s : State} (hs : s.Inv) : (w.apply s).Inv := by
  cases w with
  | altcode code => exact inv_complete (inv_writeAltcode hs code) _
  | cpr yz xz => exact inv_complete (inv_writeCpr hs yz xz) _
  | crc rem => exact inv_complete (inv_writeCrc hs rem) _
  | frames o =>
    exact inv_complete (inv_writeFrames hs (frameOk_positionFrame _ o false) (frameOk_positionFrame _ o true)
      (framePairOk_positionFrame _ o)) _
  | ident o => exact inv_complete (inv_writeDiag (inv_writeIdent hs (frameOk_identFrame _ o)) _) _
  | modBuf even odd => exact inv_complete (inv_writeModBuf hs (modBufOk_modBuffer even odd)) _
  | samples b len hlen lo hi => exact inv_complete (inv_convert hs b hlen lo hi) _
  | samplesDiag b lo hi mask => exact inv_complete (inv_writeDiag (inv_convert hs b le_rfl lo hi) mask) _
  | failure e => exact inv_complete hs e

/-- Settles O52, by the action the step takes. -/
theorem everyStepKeepsTheInvariant : Obligations.EveryStepKeepsTheInvariant := by
  intro s t hs h
  cases taken_of_step h with
  | idle => exact hs
  | @issued c rest w =>
    rw [w.apply_issue]
    exact w.inv_apply (inv_withHost hs rest)
  | lost => exact inv_withHost hs _
  | read => exact inv_hostRead (inv_withHost hs _) _
  | rst => exact inv_driveRst (inv_withHost hs _) _

/-! ### The identification frame (R45, R91 to R96) -/

/-- The four header bytes, of a frame that begins with the header. -/
theorem headerBytes_of_byteAt {ca : BitVec 3} {icao : BitVec 24} {f : Frame}
    (h : ∀ i < 4, byteAt f i = byteAt (headerBits ca icao) i) : Reference.HeaderBytes ca icao f := by
  have hdfca : byteAt (headerBits ca icao) 0 = 0x88#8 ||| ca.setWidth 8 := by
    change byteAt (Config.df ++ ca ++ icao) 0 = _
    rw [byteAt_append_left _ _ (by omega)]
    clear h
    revert ca
    decide
  have hicao (i : Nat) (h1 : 1 ≤ i) (h4 : i < 4) : byteAt (headerBits ca icao) i = byteAt icao (i - 1) :=
    byteAt_append_right 1 (Config.df ++ ca) icao rfl h1 (by omega)
  constructor
  · rw [h 0 (by omega), hdfca]
  · rw [h 1 (by omega), hicao 1 (by omega) (by omega)]; rfl
  · rw [h 2 (by omega), hicao 2 (by omega) (by omega)]; rfl
  · rw [h 3 (by omega), hicao 3 (by omega) (by omega)]; rfl

/-- Bytes 11 to 13 of an assembled frame. -/
theorem crcBytes_frameOf (m : Msg) : Reference.CrcBytes (frameOf m) := by
  have hcrc (i : Nat) (h11 : 11 ≤ i) (h14 : i < 14) : byteAt (frameOf m) i = byteAt (crc24 m) (i - 11) :=
    byteAt_append_right 11 m (crc24 m) rfl h11 (by omega)
  constructor
  · rw [hcrc 11 (by omega) (by omega), frameOf_msg]; rfl
  · rw [hcrc 12 (by omega) (by omega), frameOf_msg]; rfl
  · rw [hcrc 13 (by omega) (by omega), frameOf_msg]; rfl

/-- The character map of the model is that of R91. -/
theorem charMap_eq_charRow (ch : Byte) :
    charMap ch = (BitVec.ofNat 6 (Reference.charRow ch.toNat).1, (Reference.charRow ch.toNat).2) := by
  revert ch
  decide

/-- The code of a character is that of R91. -/
theorem charOf_eq_charCode (name : Name8) (i : Nat) : Reference.charOf name i = charCode name i := by
  rw [charCode, charMap_eq_charRow, Reference.charOf]

theorem diagMask_getLsbD (bad : Nat → Bool) {i : Nat} (h : i < 8) : (diagMask bad).getLsbD i = bad i := by
  unfold diagMask
  interval_cases i <;>
    simp (disch := omega) only [bit_append_low, bit_append_high, BitVec.getLsbD_ofBool] <;> simp

/-- Bit i of DIAG says whether character i falls in the last row of the map. -/
theorem nameDiag_getLsbD (name : Name8) {i : Nat} (h : i < 8) :
    (nameDiag name).getLsbD i = (Reference.charRow (byteAt name i).toNat).2 := by
  rw [nameDiag, diagMask_getLsbD _ h, charMap_eq_charRow]

/-- A concatenation as R94 writes it, by shift and or. -/
theorem append_eq_shiftLeft_or {u v : Nat} (x : BitVec u) (y : BitVec v) :
    x ++ y = (x.setWidth (u + v) <<< v) ||| y.setWidth (u + v) := by
  apply BitVec.eq_of_getLsbD_eq
  intro i hi
  simp only [BitVec.getLsbD_append, BitVec.getLsbD_or, BitVec.getLsbD_shiftLeft, BitVec.getLsbD_setWidth]
  by_cases hv : i < v
  · simp [hv, hi]
  · simp [hv, hi, show i - v < u + v by omega, BitVec.getLsbD_of_ge y i (by omega)]

/-- The three bytes in which a 6-bit code, the last 6 bits of x, and three further codes are packed (R94). -/
theorem packedCodes {u : Nat} (x : BitVec u) {a : BitVec 6} (b c d : BitVec 6) (ha : x.extractLsb' 0 6 = a) :
    (x ++ b ++ c ++ d).extractLsb' 16 8 = (a.setWidth 8 <<< 2) ||| (b.extractLsb' 4 2).setWidth 8 ∧
    (x ++ b ++ c ++ d).extractLsb' 8 8 =
      ((b.extractLsb' 0 4).setWidth 8 <<< 4) ||| (c.extractLsb' 2 4).setWidth 8 ∧
    (x ++ b ++ c ++ d).extractLsb' 0 8 = ((c.extractLsb' 0 2).setWidth 8 <<< 6) ||| d.setWidth 8 := by
  refine ⟨?_, ?_, ?_⟩
  · rw [extract_append_high _ _ (by omega), extract_append_high _ _ (by omega), ← ha]
    exact (extract_append_across x b (a := 6) (b := 2) (by omega)).trans (append_eq_shiftLeft_or _ _)
  · rw [extract_append_high _ _ (by omega)]
    refine (extract_append_across (x ++ b) c (a := 4) (b := 4) (by omega)).trans ?_
    rw [extract_append_low _ _ (by omega)]
    exact append_eq_shiftLeft_or _ _
  · refine (extract_append_across (x ++ b ++ c) d (a := 2) (b := 6) (by omega)).trans ?_
    rw [extract_append_low _ _ (by omega), extract_self]
    exact append_eq_shiftLeft_or _ _

/-- The first three bytes of the packed codes of a name hold its first four codes. -/
theorem byteAt_nameBits_left (name : Name8) {i : Nat} (h : i < 3) :
    byteAt (nameBits name) i =
      byteAt (charCode name 0 ++ charCode name 1 ++ charCode name 2 ++ charCode name 3) i := by
  change byteAt (charCode name 0 ++ charCode name 1 ++ charCode name 2 ++ charCode name 3 ++ charCode name 4 ++
    charCode name 5 ++ charCode name 6 ++ charCode name 7) i = _
  rw [byteAt_append_left _ _ (by omega), byteAt_append_left _ _ (by omega),
    byteAt_append_left _ _ (by omega), byteAt_append_left _ _ (by omega)]

/-- The payload bytes, of a frame that holds the type byte and the packed codes of a name. -/
theorem identBytes_of_byteAt {ec : BitVec 3} {name : Name8} {f : Frame}
    (htype : byteAt f 4 = 0x08#8 ||| ec.setWidth 8)
    (hname : ∀ i < 6, byteAt f (5 + i) = byteAt (nameBits name) i) : Reference.IdentBytes ec name f := by
  obtain ⟨h5, h6, h7⟩ :=
    packedCodes (charCode name 0) (charCode name 1) (charCode name 2) (charCode name 3) (extract_self _)
  obtain ⟨h8, h9, h10⟩ :=
    packedCodes (charCode name 0 ++ charCode name 1 ++ charCode name 2 ++ charCode name 3 ++ charCode name 4)
      (charCode name 5) (charCode name 6) (charCode name 7)
      ((extract_append_low _ _ (by omega)).trans (extract_self _))
  have hleft (i : Nat) (h : i < 3) := (hname i (by omega)).trans (byteAt_nameBits_left name h)
  refine ⟨htype, ?_, ?_, ?_, ?_, ?_, ?_⟩ <;> simp only [charOf_eq_charCode]
  · exact (hleft 0 (by omega)).trans h5
  · exact (hleft 1 (by omega)).trans h6
  · exact (hleft 2 (by omega)).trans h7
  · exact (hname 3 (by omega)).trans h8
  · exact (hname 4 (by omega)).trans h9
  · exact (hname 5 (by omega)).trans h10

/-- The header of the identification frame. -/
theorem headerBytes_identFrame (ec : BitVec 3) (o : IdReport) :
    Reference.HeaderBytes o.ca o.icao (identFrame ec o) := by
  refine headerBytes_of_byteAt fun i hi => ?_
  rw [identFrame, byteAt_frameOf _ (by omega)]
  change byteAt (headerBits o.ca o.icao ++ Config.idTc ++ ec ++ nameBits o.name) i = _
  rw [byteAt_append_left _ _ (by omega), byteAt_append_left _ _ (by omega),
    byteAt_append_left _ _ (by omega)]

/-- The byte with the type code and EC. -/
theorem identMsg_typeByte (ec : BitVec 3) (o : IdReport) :
    byteAt (identMsg ec o) 4 = 0x08#8 ||| ec.setWidth 8 := by
  have hpair : byteAt (identMsg ec o) 4 = Config.idTc ++ ec := by
    change byteAt (headerBits o.ca o.icao ++ Config.idTc ++ ec ++ nameBits o.name) 4 = _
    rw [byteAt_append_left _ _ (by omega)]
    refine (extract_append_across _ _ (a := 5) (b := 3) (by omega)).trans ?_
    rw [extract_append_low _ _ (by omega), extract_self, extract_self]
  rw [hpair]
  generalize ec = e
  revert e
  decide

/-- The payload of the identification frame. -/
theorem identBytes_identFrame (ec : BitVec 3) (o : IdReport) :
    Reference.IdentBytes ec o.name (identFrame ec o) := by
  refine identBytes_of_byteAt ((byteAt_frameOf _ (by omega)).trans (identMsg_typeByte ec o)) fun i hi => ?_
  rw [identFrame, byteAt_frameOf _ (by omega)]
  refine (byteAt_append_right 5 (headerBits o.ca o.icao ++ Config.idTc ++ ec) _ rfl (by omega) (by omega)).trans ?_
  rw [Nat.add_sub_cancel_left]

/-- Settles O25: the frame is `identFrame` and the mask `nameDiag`. -/
theorem idfrmWritesTheFrameAndTheMask : Obligations.IdfrmWritesTheFrameAndTheMask := fun o s =>
  ⟨identFrame Config.ec o, nameDiag o.name, headerBytes_identFrame _ o, identBytes_identFrame _ o,
    crcBytes_frameOf _, fun _ hi => nameDiag_getLsbD o.name hi,
    (exec_of_effect (w := .ident o) rfl s).trans rfl⟩

end Sys2Proof.Registers
end

section
/-! PROOFS. The family of spec/20_memory.md: host reads (R40, R43, R132), the layout of the modulated buffer
(R33, R99, R102), the data formats as bit strings (R32, R45 to R50), and the idempotence of the operations
(R40). -/

namespace Sys2Proof.Buffers

open Sys2Proof Sys2Proof.Machine Sys2Proof.Laws Sys2Proof.Registers

/-! ### Host reads (R40, R43, R132) -/

/-- Settles O45: a step that takes a read keeps its result, and a read of STATUS has a value in every state. -/
theorem statusIsAlwaysReadable : Obligations.StatusIsAlwaysReadable := by
  intro s rest hhost
  rw [step_read hhost, State.readPort_status]

/-- A read of a result register while BUSY is 1. -/
theorem readPort_of_busy {s : State} {r : ReadPort} (hr : r ≠ .status) (hbusy : s.busy = true) :
    s.readPort r = .fault (.readBusy r) := by
  rw [State.readPort_eq hr, if_pos hbusy]

/-- Settles O48: BUSY is looked at before the valid bit, so no value is returned. -/
theorem readsWhileBusyFault : Obligations.ReadsWhileBusyFault := by
  intro s rest r hhost hbusy hr
  rw [step_read hhost, readPort_of_busy hr hbusy]

/-- A read of a result register whose valid bit is 1, while BUSY is 0. -/
theorem readPort_of_valid {s : State} {r : ReadPort} (hr : r ≠ .status) (hbusy : s.busy = false)
    (hvalid : s.valid r = true) : s.readPort r = s.content r := by
  simp [State.readPort_eq hr, hbusy, hvalid]

/-- Byte i, from the position of the last bit of byte 0. -/
theorem byteAt_eq_extract (n : Nat) (b : BitVec (n + 8)) (i : Nat) : byteAt b i = b.extractLsb' (n - 8 * i) 8 := by
  rw [byteAt]
  congr 1
  omega

/-- Word i, from the position of the last bit of word 0. -/
theorem wordAt_eq_extract (n : Nat) (b : BitVec (n + 16)) (i : Nat) :
    wordAt b i = b.extractLsb' (n - 16 * i) 16 := by
  rw [wordAt]
  congr 1
  omega

/-- Settles O46: the valid bit of the port is 1, so the read returns what the port holds. -/
theorem validRegisterReadsReturnTheElement : Obligations.ValidRegisterReadsReturnTheElement := by
  intro s rest r v hhost hbusy hv
  rw [step_read hhost]
  suffices hread : s.readPort r = .value v by rw [hread]
  have hport (hr : r ≠ .status) (hvalid : s.valid r = true) (hcontent : s.content r = .value v) :
      s.readPort r = .value v := (readPort_of_valid hr hbusy hvalid).trans hcontent
  cases r with
  | status => exact hv.elim
  | frameE i =>
    obtain ⟨hvalid, rfl⟩ := hv
    exact hport nofun hvalid (by rw [State.content, byteAt_eq_extract 104])
  | frameO i =>
    obtain ⟨hvalid, rfl⟩ := hv
    exact hport nofun hvalid (by rw [State.content, byteAt_eq_extract 104])
  | modBuf i =>
    obtain ⟨hvalid, rfl⟩ := hv
    exact hport nofun hvalid (by rw [State.content, byteAt_eq_extract 2040])
  | sampBuf i =>
    obtain ⟨hvalid, hi, rfl⟩ := hv
    exact hport nofun hvalid (by rw [State.content, if_pos hi, wordAt_eq_extract 65520])
  | _ =>
    obtain ⟨hvalid, rfl⟩ := hv
    exact hport nofun hvalid rfl

/-! ### Idempotence (R40) -/

/-- A conversion of the same bytes again changes nothing more. -/
theorem convert_again (s : State) (b : ModBuf) (len : Nat) (lo hi : Sample) :
    (s.convert b len lo hi).convert b len lo hi = s.convert b len lo hi :=
  s.writeSamples_again _ _

/-- STATUS and SAMPBUF are apart. -/
theorem complete_convert (s : State) (e : ErrCode) (b : ModBuf) (len : Nat) (lo hi : Sample) :
    (s.complete e).convert b len lo hi = (s.convert b len lo hi).complete e := by
  simp only [State.convert, State.writeSamples, State.complete]

/-- DIAG and SAMPBUF are apart. -/
theorem writeDiag_convert (s : State) (mask : BitVec 8) (b : ModBuf) (len : Nat) (lo hi : Sample) :
    (s.writeDiag mask).convert b len lo hi = (s.convert b len lo hi).writeDiag mask := by
  simp only [State.convert, State.writeSamples, State.writeDiag]

/-- An effect writes the same values whatever the state, so applying it again changes nothing. The words of
SAMPBUF at SLEN and above are not written, and keep what they hold. -/
theorem effect_apply_apply (w : Effect) (s : State) : w.apply (w.apply s) = w.apply s := by
  cases w with
  | samples b len hlen lo hi =>
    simp only [Effect.apply, complete_convert, convert_again, State.complete_complete]
  | samplesDiag b lo hi mask =>
    simp only [Effect.apply, complete_convert, writeDiag_convert, convert_again]
    rfl
  | _ => rfl

/-- Settles O43: the instruction has the same effect in both states. -/
theorem operationsAreIdempotent : Obligations.OperationsAreIdempotent := by
  intro i s t h
  obtain ⟨w, hw, rfl⟩ := effect_of_exec h
  rw [exec_of_effect hw, effect_apply_apply]

/-! ### The layout of the modulated buffer (R33, R99, R102) -/

/-- Pair j of a modulated byte is that of the inverted bit 7 - j. -/
theorem modByte_pair (x : Byte) {j : Nat} (hj : j < 8) :
    (modByte x).extractLsb' (14 - 2 * j) 2 = ppmPair (!x.getLsbD (7 - j)) := by
  unfold modByte
  interval_cases j <;>
    simp (disch := omega) only [extract_append_high, extract_append_low, BitVec.getLsbD_not] <;>
    simp

/-- The pair of an inverted bit b is (b, 1 - b). -/
theorem ppmPair_not (b : Bool) : (ppmPair (!b)).getLsbD 1 = b ∧ (ppmPair (!b)).getLsbD 0 = !b := by
  cases b <;> exact ⟨rfl, rfl⟩

/-- The bits of a modulated byte. -/
theorem modByte_bits (x : Byte) {j : Nat} (hj : j < 8) :
    (modByte x).getLsbD (15 - 2 * j) = x.getLsbD (7 - j) ∧
      (modByte x).getLsbD (14 - 2 * j) = !x.getLsbD (7 - j) := by
  have hpair := ppmPair_not (x.getLsbD (7 - j))
  rw [← modByte_pair x hj] at hpair
  simpa [BitVec.getLsbD_extractLsb', show 14 - 2 * j + 1 = 15 - 2 * j by omega] using hpair

/-- A modulated frame is the sequence of the modulated bytes of the frame. -/
theorem modFrame_eq_packWords (f : Frame) : modFrame f = packWords (fun i => modByte (byteAt f i)) 14 := by
  have hfirst : (0#0 ++ modByte (byteAt f 0) : BitVec (0 + 16)) = modByte (byteAt f 0) :=
    BitVec.zero_width_append _ _
  simp only [packWords]
  rw [hfirst]
  rfl

/-- Two successive bytes from an even index are one word. -/
theorem byteAt_append_byteAt {w : Nat} (b : BitVec w) {i : Nat} (h : 16 * (i + 1) ≤ w) :
    byteAt b (2 * i) ++ byteAt b (2 * i + 1) = wordAt b i := by
  have hhigh : w - 8 * (2 * i + 1) = w - 8 * (2 * i + 1 + 1) + 8 := by omega
  have hlow : w - 8 * (2 * i + 1 + 1) = w - 16 * (i + 1) := by omega
  rw [wordAt, ← hlow]
  exact BitVec.extractLsb'_append_extractLsb'_eq_extractLsb' hhigh

/-- A buffer that holds the bytes of a modulated frame holds the frame's bits as pairs. -/
theorem modulatedAt_of_byteAt {b : ModBuf} {start : Nat} {f : Frame}
    (h : ∀ k < 28, byteAt b (start + k) = byteAt (modFrame f) k) : Reference.ModulatedAt b start f := by
  intro i hi j hj
  have hword : byteAt b (start + 2 * i) ++ byteAt b (start + 1 + 2 * i) = modByte (byteAt f i) := by
    rw [show start + 1 + 2 * i = start + (2 * i + 1) by omega, h _ (by omega), h _ (by omega),
      byteAt_append_byteAt _ (by omega), modFrame_eq_packWords]
    exact wordAt_packWords _ hi
  rw [hword]
  exact modByte_bits _ hj

theorem byteAt_modBuffer_even (even : Frame) (odd : Option Frame) {k : Nat} (h : k < 28) :
    byteAt (modBuffer even odd) (50 + k) = byteAt (modFrame even) k := by
  change byteAt (pause 48 ++ Config.preamble ++ modFrame even ++ pause 100 ++ modTail odd) (50 + k) = _
  rw [byteAt_append_left _ _ (by omega), byteAt_append_left _ _ (by omega),
    byteAt_append_right 50 _ _ rfl (by omega) (by omega), Nat.add_sub_cancel_left]

theorem byteAt_modTail_preamble (o : Frame) {i : Nat} (h : i < 2) :
    byteAt (modTail (some o)) i = byteAt Config.preamble i := by
  change byteAt (Config.preamble ++ modFrame o ++ pause 48) i = _
  rw [byteAt_append_left _ _ (by omega), byteAt_append_left _ _ (by omega)]

theorem byteAt_modTail_odd (o : Frame) {k : Nat} (h : k < 28) :
    byteAt (modTail (some o)) (2 + k) = byteAt (modFrame o) k := by
  change byteAt (Config.preamble ++ modFrame o ++ pause 48) (2 + k) = _
  rw [byteAt_append_left _ _ (by omega), byteAt_append_right 2 _ _ rfl (by omega) (by omega),
    Nat.add_sub_cancel_left]

/-- A byte of the tail, by its distance from byte 178. -/
theorem byteAt_modBuffer_add (even : Frame) (odd : Option Frame) {k : Nat} (h : k < 78) :
    byteAt (modBuffer even odd) (178 + k) = byteAt (modTail odd) k := by
  rw [byteAt_modBuffer_tail even odd (by omega) (by omega), Nat.add_sub_cancel_left]

/-- The buffer has the layout of R33, with an odd frame and without one. -/
theorem bufferLayout_modBuffer (even : Frame) (odd : Option Frame) :
    Reference.BufferLayout even odd (modBuffer even odd) := by
  refine ⟨fun i _ hi => byteAt_modBuffer_lead even odd hi,
    byteAt_modBuffer_preamble even odd le_rfl (by omega),
    byteAt_modBuffer_preamble even odd (by omega) (by omega),
    modulatedAt_of_byteAt fun k hk => byteAt_modBuffer_even even odd hk,
    fun i hlo hhi => byteAt_modBuffer_mid even odd hlo hhi, ?_⟩
  cases odd with
  | none =>
    intro i hlo hhi
    exact (byteAt_modBuffer_tail even none hlo hhi).trans (byteAt_pause 78 _)
  | some o =>
    have htail (k : Nat) (hk : k < 78) := byteAt_modBuffer_add even (some o) hk
    refine ⟨(htail 0 (by omega)).trans (byteAt_modTail_preamble o (by omega)),
      (htail 1 (by omega)).trans (byteAt_modTail_preamble o (by omega)),
      modulatedAt_of_byteAt fun k hk => ?_, fun i hlo hhi => ?_⟩
    · rw [show 180 + k = 178 + (2 + k) by omega, htail _ (by omega), byteAt_modTail_odd o hk]
    · rw [byteAt_modBuffer_tail even (some o) (by omega) hhi]
      exact byteAt_modTail_trail (some o) (by omega) (by omega)

/-- Settles O28: the buffer is `modBuffer`. -/
theorem ppmmodWritesTheLayout : Obligations.PpmmodWritesTheLayout := fun even odd s =>
  ⟨modBuffer even odd, bufferLayout_modBuffer even odd,
    (exec_of_effect (w := .modBuf even odd) rfl s).trans rfl⟩

/-! ### The data formats as bit strings (R32, R45 to R50)

Each decoder reads fields that lie side by side, and accepts only if the fixed bits between them are those
the encoder writes; so the concatenation of the fields is the datum. -/

/-- A frame is its first 88 bits and its last 24. -/
theorem frame_msg_append_pi (b : Frame) : b.extractLsb' 24 88 ++ b.extractLsb' 0 24 = b :=
  (BitVec.extractLsb'_append_extractLsb'_eq_extractLsb' rfl).trans (extract_self b)

/-- The header is read from the first four bytes of a frame that begins with DF. -/
theorem headerBits_extract {b : Frame} (hdf : b.extractLsb' 107 5 = Config.df) :
    headerBits (b.extractLsb' 104 3) (b.extractLsb' 80 24) = b.extractLsb' 80 32 := by
  rw [headerBits, ← hdf]
  simp (disch := omega) only [BitVec.extractLsb'_append_extractLsb'_eq_extractLsb']

theorem positionFieldsMsg_ofBits {b : Frame} (hdf : b.extractLsb' 107 5 = Config.df) :
    positionFieldsMsg (PositionFields.ofBits b) = b.extractLsb' 24 88 := by
  simp (disch := omega) only [positionFieldsMsg, PositionFields.ofBits, positionMe, headerBits_extract hdf,
    BitVec.extractLsb'_append_extractLsb'_eq_extractLsb']

theorem identFieldsMsg_ofBits {b : Frame} (hdf : b.extractLsb' 107 5 = Config.df)
    (htc : b.extractLsb' 75 5 = Config.idTc) :
    identFieldsMsg (IdentFields.ofBits b) = b.extractLsb' 24 88 := by
  simp (disch := omega) only [identFieldsMsg, IdentFields.ofBits, headerBits_extract hdf, ← htc,
    BitVec.extractLsb'_append_extractLsb'_eq_extractLsb']

/-- What a decoder of data accepts: a well-formed row whose encoding is the datum. -/
structure Faithful (e : Encoded) (i : Instr) : Prop where
  /-- The row is well formed. -/
  wellFormed : i.wellFormed = true
  /-- The datum is its encoding. -/
  encode_eq : encode i = e

/-- A position frame is accepted when it begins with DF and ends with its CRC (R32, R45, R46). -/
theorem faithful_decodePosition {b : Frame} {i : Instr} (h : decodePosition b = .ok i) :
    Faithful (.position b) i := by
  simp only [decodePosition] at h
  split at h
  next => cases h
  next hdf =>
    split at h
    next => cases h
    next hpi =>
      cases h
      have hmsg := positionFieldsMsg_ofBits (not_not.mp hdf)
      refine ⟨beq_iff_eq.mpr ((not_not.mp hpi).trans (congrArg crc24 hmsg.symm)), ?_⟩
      rw [encode, hmsg]
      exact congrArg _ (frame_msg_append_pi b)

/-- An identification frame must have the type code 1 as well (R47). -/
theorem faithful_decodeIdent {b : Frame} {i : Instr} (h : decodeIdent b = .ok i) : Faithful (.ident b) i := by
  simp only [decodeIdent] at h
  split at h
  next => cases h
  next hdf =>
    split at h
    next => cases h
    next htc =>
      split at h
      next => cases h
      next hpi =>
        cases h
        have hmsg := identFieldsMsg_ofBits (not_not.mp hdf) (not_not.mp htc)
        refine ⟨beq_iff_eq.mpr ((not_not.mp hpi).trans (congrArg crc24 hmsg.symm)), ?_⟩
        rw [encode, hmsg]
        exact congrArg _ (frame_msg_append_pi b)

/-- A field of one bit. -/
theorem extract_one {w : Nat} (x : BitVec w) (k : Nat) : x.extractLsb' k 1 = BitVec.ofBool (x.getLsbD k) := by
  apply BitVec.eq_of_getLsbD_eq
  intro i hi
  obtain rfl : i = 0 := by omega
  simp

/-- M and Q are put back between the fields they were removed from (R48). -/
theorem faithful_decodeAltcode25ft {b : BitVec 13} {i : Instr} (h : decodeAltcode25ft b = .ok i) :
    Faithful (.altcode25ft b) i := by
  unfold decodeAltcode25ft at h
  split at h
  next => cases h
  next hmarkers =>
    cases h
    obtain ⟨hM, hQ⟩ : b.getLsbD 6 = false ∧ b.getLsbD 4 = true := by simpa using hmarkers
    have hm : 0#1 = b.extractLsb' 6 1 := by rw [extract_one, hM]; rfl
    have hq : 1#1 = b.extractLsb' 4 1 := by rw [extract_one, hQ]; rfl
    refine ⟨rfl, congrArg Encoded.altcode25ft ?_⟩
    simp (disch := omega) only [extract_append_high, extract_append_low, hm, hq]
    simp (disch := omega) only [Nat.reduceSub, extract_self,
      BitVec.extractLsb'_append_extractLsb'_eq_extractLsb']

/-- The low four bits of a 100-ft code are zeros (R48). -/
theorem faithful_decodeAltcode100ft {b : BitVec 13} {i : Instr} (h : decodeAltcode100ft b = .ok i) :
    Faithful (.altcode100ft b) i := by
  unfold decodeAltcode100ft at h
  split at h
  next => cases h
  next hlow =>
    cases h
    refine ⟨rfl, congrArg Encoded.altcode100ft ?_⟩
    rw [show 0#4 = b.extractLsb' 0 4 from (not_not.mp hlow).symm]
    exact (BitVec.extractLsb'_append_extractLsb'_eq_extractLsb' rfl).trans (extract_self b)

/-- A symbol is two different bits (R49). -/
theorem faithful_decodeSymbol {b : BitVec 2} {i : Instr} (h : decodeSymbol b = .ok i) :
    Faithful (.symbol b) i := by
  unfold decodeSymbol at h
  split at h
  next => cases h
  next hne =>
    cases h
    refine ⟨beq_iff_eq.mpr (Bool.eq_not.mpr hne), congrArg Encoded.symbol ?_⟩
    rw [← extract_one, ← extract_one]
    exact (BitVec.extractLsb'_append_extractLsb'_eq_extractLsb' rfl).trans (extract_self b)

/-- A sample pair is one word twice (R50). -/
theorem faithful_decodeSamplePair {b : BitVec 32} {i : Instr} (h : decodeSamplePair b = .ok i) :
    Faithful (.samplePair b) i := by
  unfold decodeSamplePair at h
  split at h
  next => cases h
  next hne =>
    cases h
    exact ⟨beq_iff_eq.mpr (not_not.mp hne),
      congrArg _ ((BitVec.extractLsb'_append_extractLsb'_eq_extractLsb' rfl).trans (extract_self b))⟩

/-- No operation code selects a data format, and every command is well formed (R44, R51). -/
theorem decodeCmd_wellFormed (c : Cmd) : (decodeCmd c).wellFormed = true := by
  unfold decodeCmd
  split <;> rfl

/-- Settles O5, by where the datum stands. -/
theorem acceptedDataAreTheirEncoding : Obligations.AcceptedDataAreTheirEncoding := by
  intro e i h
  have hdata (hf : Faithful e i) : i.wellFormed = true ∧ ((∀ b, e ≠ .cmd b) → encode i = e) :=
    ⟨hf.wellFormed, fun _ => hf.encode_eq⟩
  cases e with
  | cmd b =>
    cases h
    exact ⟨decodeCmd_wellFormed _, fun hcmd => absurd rfl (hcmd b)⟩
  | position b => exact hdata (faithful_decodePosition h)
  | ident b => exact hdata (faithful_decodeIdent h)
  | altcode25ft b => exact hdata (faithful_decodeAltcode25ft h)
  | altcode100ft b => exact hdata (faithful_decodeAltcode100ft h)
  | symbol b => exact hdata (faithful_decodeSymbol h)
  | samplePair b => exact hdata (faithful_decodeSamplePair h)

end Sys2Proof.Buffers
end

section
/-! PROOFS. The family of spec/30_encoding.md: the command format and its operation codes (R51, R52, R54), and
the data formats as what the decoders read back (R44 to R50), each tied to the operation that writes it. -/

namespace Sys2Proof.Encoding

open Sys2Proof Sys2Proof.Machine Sys2Proof.Laws Sys2Proof.Registers Sys2Proof.Buffers

/-! ### The operation codes (R51, R54) -/

/-- A bundle whose operation code is known decodes as that code, whatever stands on the ports. -/
theorem decodeCmd_of_op {c : Cmd} {code : BitVec 4} (h : c.op = code) :
    decodeCmd c = decodeCmd { c with op := code } := by
  subst h
  rfl

/-- Settles O2: at each of the nine codes, the arm of the decoder. -/
theorem operationCodeSelectsOperation : Obligations.OperationCodeSelectsOperation := fun _ =>
  ⟨decodeCmd_of_op, decodeCmd_of_op, decodeCmd_of_op, decodeCmd_of_op, decodeCmd_of_op, decodeCmd_of_op,
    decodeCmd_of_op, decodeCmd_of_op, decodeCmd_of_op⟩

/-- A word within the bits the table gives it is read as a bundle. -/
theorem decodeTableWord_of_lt {nbits w : Nat} (hbits : nbits ≤ 2701) (hw : w < 2 ^ nbits) :
    decodeTableWord nbits w = some (decodeCmd (Cmd.ofNat w)) :=
  if_pos ⟨hbits, hw⟩

/-- A word that fills the operation code alone leaves every port 0. -/
theorem ofNat_of_lt {w : Nat} (h : w < 2 ^ 4) : Cmd.ofNat w = Cmd.idle (BitVec.ofNat 4 w) := by
  simp (disch := omega) only [Cmd.ofNat, Cmd.idle, Nat.shiftRight_eq_zero, Nat.testBit_lt_two_pow]
  rfl

/-- Settles O3: four words are an operation code alone, and the fifth carries an altitude above it. -/
theorem tableWordsDecode : Obligations.TableWordsDecode := by
  have hcode (w : Nat) (h : w < 2 ^ 4) :
      decodeTableWord 8 w = some (decodeCmd (Cmd.idle (BitVec.ofNat 4 w))) := by
    rw [decodeTableWord_of_lt (by omega) (by omega), ofNat_of_lt h]
  have hword : Cmd.ofNat 0x40C38780000000001 = { Cmd.idle 0x1 with alt := 0x40C3878000000000#64 } := rfl
  refine ⟨hcode 0x1 (by omega), ?_, hcode 0x3 (by omega), hcode 0x9 (by omega), hcode 0xA (by omega)⟩
  rw [decodeTableWord_of_lt (by omega) (by omega), hword]
  rfl

/-- What is refused as a data format is no command: a decoded command always answers a next state. -/
theorem decodeCmd_ne_of_refused {i : Instr} {s : State} (h : exec i s = .refused .dataFormat) (c : Cmd) :
    decodeCmd c ≠ i := by
  rintro rfl
  obtain ⟨t, ht⟩ := exec_decodeCmd c s
  rw [ht] at h
  cases h

/-- Settles O40: a data format has no effect, so `exec` refuses it. -/
theorem dataFormatsAreNoCommands : Obligations.DataFormatsAreNoCommands := by
  intro s f g n m b c x y i hi
  have hformat : effect i = none := by
    simp only [List.mem_cons, List.not_mem_nil, or_false] at hi
    rcases hi with rfl | rfl | rfl | rfl | rfl | rfl <;> rfl
  have hrefused : exec i s = .refused .dataFormat := by
    rw [exec_eq_effect, hformat]
    rfl
  exact ⟨hrefused, decodeCmd_ne_of_refused hrefused⟩

/-! ### Decoding what was encoded (R44 to R50, R52) -/

/-- A command bundle is read back from its bits. -/
theorem decode_toBits (c : Cmd) : decode (.cmd c.toBits) = .ok (decodeCmd c) := by
  rw [decode, ofBits_toBits]

/-- The decoder of position frames accepts a frame that begins with DF and ends with its CRC. -/
theorem decodePosition_of_frameOk {b : Frame} (h : frameOk b) :
    decodePosition b = .ok (.fmtDf17Position (PositionFields.ofBits b)) := by
  obtain ⟨hdf, hpi⟩ := h
  exact (if_neg (not_not.mpr hdf)).trans (if_neg (not_not.mpr hpi))

/-- The decoder of identification frames asks for the type code 1 as well. -/
theorem decodeIdent_of_frameOk {b : Frame} (h : frameOk b) (htc : b.extractLsb' 75 5 = Config.idTc) :
    decodeIdent b = .ok (.fmtDf17Ident (IdentFields.ofBits b)) := by
  obtain ⟨hdf, hpi⟩ := h
  exact (if_neg (not_not.mpr hdf)).trans ((if_neg (not_not.mpr htc)).trans (if_neg (not_not.mpr hpi)))

/-- A message that begins with DF, followed by its CRC, is a frame (R45). -/
theorem frameOk_append {m : Msg} {pi : BitVec 24} (hdf : m.extractLsb' 83 5 = Config.df) (hpi : pi = crc24 m) :
    frameOk (m ++ pi) := by
  subst hpi
  exact frameOk_frameOf hdf

/-- A position frame of fields whose PI is their CRC is read back (R45, R46). -/
theorem decodePosition_fields {f : PositionFields} (h : f.pi = crc24 (positionFieldsMsg f)) :
    decodePosition (positionFieldsMsg f ++ f.pi) = .ok (.fmtDf17Position f) := by
  have hdf : (positionFieldsMsg f).extractLsb' 83 5 = Config.df :=
    (extract_append_high _ _ (by omega)).trans (headerBits_df f.ca f.icao)
  rw [decodePosition_of_frameOk (frameOk_append hdf h), positionFields_ofBits]

/-- The message of an identification frame begins with DF, and its payload with the type code 1. -/
theorem identFieldsMsg_fixed (f : IdentFields) :
    (identFieldsMsg f).extractLsb' 83 5 = Config.df ∧ (identFieldsMsg f).extractLsb' 51 5 = Config.idTc := by
  unfold identFieldsMsg
  simp (disch := omega) only [extract_append_high, extract_append_low]
  exact ⟨headerBits_df f.ca f.icao, rfl⟩

/-- An identification frame of fields whose PI is their CRC is read back (R45, R47). -/
theorem decodeIdent_fields {f : IdentFields} (h : f.pi = crc24 (identFieldsMsg f)) :
    decodeIdent (identFieldsMsg f ++ f.pi) = .ok (.fmtDf17Ident f) := by
  obtain ⟨hdf, htc⟩ := identFieldsMsg_fixed f
  have htc' := (extract_append_high (identFieldsMsg f) f.pi (s := 75) (l := 5) (by omega)).trans htc
  rw [decodeIdent_of_frameOk (frameOk_append hdf h) htc', identFields_ofBits]

/-- A 25-ft code is read back: M and Q are at their values, and removing them closes the gaps (R48). -/
theorem decodeAltcode25ft_fields (n : BitVec 11) :
    decodeAltcode25ft (n.extractLsb' 5 6 ++ 0#1 ++ n.extractLsb' 4 1 ++ 1#1 ++ n.extractLsb' 0 4) =
      .ok (.fmtAltcode25ft n) := by
  unfold decodeAltcode25ft
  simp (disch := omega) only [bit_append_high, bit_append_low, extract_append_high, extract_append_low]
  simp (disch := omega) only [Nat.reduceSub, extract_self,
    BitVec.extractLsb'_append_extractLsb'_eq_extractLsb']
  rfl

/-- A 100-ft code is read back (R48). -/
theorem decodeAltcode100ft_fields (n : BitVec 9) : decodeAltcode100ft (n ++ 0#4) = .ok (.fmtAltcode100ft n) := by
  have hlow : (n ++ 0#4).extractLsb' 0 4 = 0#4 := (extract_append_low _ _ le_rfl).trans (extract_self _)
  have hn : (n ++ 0#4).extractLsb' 4 9 = n := (extract_append_high _ _ le_rfl).trans (extract_self _)
  exact (if_neg (not_not.mpr hlow)).trans (by rw [hn])

/-- A symbol is read back when its bits differ (R49). -/
theorem decodeSymbol_not (b : Bool) :
    decodeSymbol (BitVec.ofBool b ++ BitVec.ofBool (!b)) = .ok (.fmtSymbol b (!b)) := by
  cases b <;> rfl

/-- A sample pair is read back when its words agree (R50). -/
theorem decodeSamplePair_same (i : Sample) : decodeSamplePair (i ++ i) = .ok (.fmtSamplePair i i) := by
  have hi : (i ++ i).extractLsb' 16 16 = i := (extract_append_high _ _ le_rfl).trans (extract_self _)
  have hq : (i ++ i).extractLsb' 0 16 = i := (extract_append_low _ _ le_rfl).trans (extract_self _)
  rw [decodeSamplePair, hi, hq]
  exact if_neg (not_not.mpr rfl)

/-- Settles O4, row by row: a command by its bundle, a data format by its own decoder. -/
theorem decodeEncodeRoundTrip : Obligations.DecodeEncodeRoundTrip := by
  intro i hi
  cases i with
  | ppmmod even odd => cases odd <;> exact decode_toBits _
  | fmtDf17Position f => exact decodePosition_fields (beq_iff_eq.mp hi)
  | fmtDf17Ident f => exact decodeIdent_fields (beq_iff_eq.mp hi)
  | fmtAltcode25ft n => exact decodeAltcode25ft_fields n
  | fmtAltcode100ft n => exact decodeAltcode100ft_fields n
  | fmtSymbol b c =>
    obtain rfl : c = !b := beq_iff_eq.mp hi
    exact decodeSymbol_not b
  | fmtSamplePair i q =>
    obtain rfl : q = i := beq_iff_eq.mp hi
    exact decodeSamplePair_same q
  | _ => exact decode_toBits _

/-! ### The frames of a position report (R85, R88) -/

/-- The fields of the position frame of one parity. -/
def positionFields (nlZero : Nat) (o : PosReport) (par : Bool) : PositionFields where
  ca := o.ca
  icao := o.icao
  tc := o.tc
  ss := o.ss
  nicsb := o.nicsb
  alt12 := altField (val o.alt)
  tbit := o.tbit
  flag := BitVec.ofBool par
  lat17 := (cprLat (val o.lat) par o.surface).setWidth 17
  lon17 := (cprLon nlZero (val o.lat) (val o.lon) par o.surface).setWidth 17
  pi := crc24 (positionMsg nlZero o par)

/-- A position frame the core assembles is read back as its fields. -/
theorem decode_positionFrame (nlZero : Nat) (o : PosReport) (par : Bool) :
    decode (.position (positionFrame nlZero o par)) = .ok (.fmtDf17Position (positionFields nlZero o par)) :=
  decodePosition_fields (f := positionFields nlZero o par) rfl

theorem posFinite_iff (o : PosReport) : posFinite o = true ↔ Reference.FiniteReport o := by
  simp only [posFinite, Bool.and_eq_true, isFinite_iff, and_assoc]

/-- The effect of POSFRM on a finite report. -/
theorem effect_posfrm {o : PosReport} (h : Reference.FiniteReport o) : effect (.posfrm o) = some (.frames o) := by
  rw [effect, if_pos ((posFinite_iff o).mpr h)]

/-- Settles O24: both frames decode to `positionFields`, which holds the operands. -/
theorem posfrmFramesAreOfTheFormat : Obligations.PosfrmFramesAreOfTheFormat := fun o s hfin =>
  ⟨_, positionFields Config.nlZero o false, positionFields Config.nlZero o true,
    exec_of_effect (effect_posfrm hfin) s, decode_positionFrame _ o false, decode_positionFrame _ o true,
    rfl, rfl, rfl, rfl, rfl⟩

/-! ### The frame of an identification report (R91, R97) -/

/-- The fields of the identification frame. -/
def identFields (ec : BitVec 3) (o : IdReport) : IdentFields where
  ca := o.ca
  icao := o.icao
  ec := ec
  char0 := charCode o.name 0
  char1 := charCode o.name 1
  char2 := charCode o.name 2
  char3 := charCode o.name 3
  char4 := charCode o.name 4
  char5 := charCode o.name 5
  char6 := charCode o.name 6
  char7 := charCode o.name 7
  pi := crc24 (identMsg ec o)

/-- The fields of the identification frame stand where the format lays them (R47, R93, R94). -/
theorem ofBits_identFrame (ec : BitVec 3) (o : IdReport) :
    IdentFields.ofBits (identFrame ec o) = identFields ec o := by
  simp (disch := omega) only [IdentFields.ofBits, identFields, identFrame, frameOf, identMsg, headerBits,
    extract_append_high, extract_append_low, Nat.reduceSub, extract_self]
  simp (disch := omega) only [nameBits, extract_append_high, extract_append_low, Nat.reduceSub, extract_self]

theorem identFrame_typeCode (ec : BitVec 3) (o : IdReport) :
    (identFrame ec o).extractLsb' 75 5 = Config.idTc := by
  simp (disch := omega) only [identFrame, frameOf, identMsg, extract_append_high, extract_append_low,
    Nat.reduceSub, extract_self]

/-- An identification frame the core assembles is read back as its fields. -/
theorem decode_identFrame (ec : BitVec 3) (o : IdReport) :
    decode (.ident (identFrame ec o)) = .ok (.fmtDf17Ident (identFields ec o)) := by
  rw [decode, decodeIdent_of_frameOk (frameOk_identFrame ec o) (identFrame_typeCode ec o), ofBits_identFrame]

/-- Code i of the frame is the one the map of R91 gives character i. -/
theorem identFields_code (ec : BitVec 3) (o : IdReport) {i : ℕ} (hi : i < 8) :
    [(identFields ec o).char0, (identFields ec o).char1, (identFields ec o).char2, (identFields ec o).char3,
      (identFields ec o).char4, (identFields ec o).char5, (identFields ec o).char6,
      (identFields ec o).char7].getD i 0 = Reference.charOf o.name i := by
  rw [charOf_eq_charCode]
  interval_cases i <;> rfl

/-- The four rows of the map of R91 that keep the character: a digit, a letter of either case, the underscore. -/
theorem charRow_kept {ch : ℕ} (h : (Reference.charRow ch).2 = false) :
    (0x30 ≤ ch ∧ ch ≤ 0x39 ∧ (Reference.charRow ch).1 = ch) ∨
      (0x41 ≤ ch ∧ ch ≤ 0x5A ∧ (Reference.charRow ch).1 = ch - 0x40) ∨
      (0x61 ≤ ch ∧ ch ≤ 0x7A ∧ (Reference.charRow ch).1 = ch - 0x60) ∨
      (ch = 0x5F ∧ (Reference.charRow ch).1 = 32) := by
  unfold Reference.charRow at h ⊢
  split_ifs at h ⊢ with hdigit hupper hlower hunderscore
  · exact .inl ⟨hdigit.1, hdigit.2, rfl⟩
  · exact .inr (.inl ⟨hupper.1, hupper.2, rfl⟩)
  · exact .inr (.inr (.inl ⟨hlower.1, hlower.2, rfl⟩))
  · exact .inr (.inr (.inr ⟨hunderscore, rfl⟩))

/-- The code of a kept character fits its field, and mapping it back gives the character in upper case (R97). -/
theorem charRow_back {ch : ℕ} (h : (Reference.charRow ch).2 = false) :
    (Reference.charRow ch).1 < 64 ∧
      (if (Reference.charRow ch).1 = 32 then 0x5F
        else if (Reference.charRow ch).1 ≤ 26 then (Reference.charRow ch).1 + 0x40
        else (Reference.charRow ch).1) = if 0x61 ≤ ch ∧ ch ≤ 0x7A then ch - 0x20 else ch := by
  have hkept := charRow_kept h
  generalize (Reference.charRow ch).1 = code at hkept ⊢
  constructor
  · omega
  · split_ifs <;> omega

/-- Settles O26: the frame decodes to `identFields`, and DIAG 0 says that no character was replaced. -/
theorem idfrmNameDecodesBack : Obligations.IdfrmNameDecodesBack := by
  intro o s
  refine ⟨_, identFields Config.ec o, exec_of_effect (w := .ident o) rfl s, decode_identFrame _ o,
    rfl, rfl, rfl, fun hdiag i hi => ?_⟩
  have hmask : nameDiag o.name = 0 := hdiag
  have hkept : (Reference.charRow (byteAt o.name i).toNat).2 = false := by
    rw [← nameDiag_getLsbD o.name hi, hmask]
    exact BitVec.getLsbD_zero
  obtain ⟨hfits, hback⟩ := charRow_back hkept
  have hcode : (Reference.charOf o.name i).toNat = (Reference.charRow (byteAt o.name i).toNat).1 :=
    (BitVec.toNat_ofNat ..).trans (Nat.mod_eq_of_lt hfits)
  rw [identFields_code Config.ec o hi, hcode]
  exact hback

/-! ### The pairs of a modulated frame (R49, R100, R102) -/

/-- The bits of two successive bytes from an even index, counted as R14 counts the bits of the buffer. -/
theorem pair_getLsbD {w : Nat} (b : BitVec w) {i l : Nat} (hi : 16 * (i + 1) ≤ w) (hl : l < 16) :
    (byteAt b (2 * i) ++ byteAt b (2 * i + 1)).getLsbD (15 - l) = b.getMsbD (16 * i + l) := by
  have hpos : w - 16 * (i + 1) + (15 - l) = w - 1 - (16 * i + l) := by omega
  rw [byteAt_append_byteAt b hi, wordAt, BitVec.getLsbD_extractLsb', BitVec.getMsbD, hpos]
  simp only [show 15 - l < 16 by omega, show 16 * i + l < w by omega, decide_true, Bool.true_and]

/-- Where a modulated frame begins with word `start` of the buffer, bit k of the frame stands as the pair
(b, 1 - b) at bits 16 · start + 2k and the next. -/
theorem pair_of_modulatedAt {b : ModBuf} {start : Nat} {f : Frame} (h : Reference.ModulatedAt b (2 * start) f)
    (hstart : start ≤ 114) {k : Nat} (hk : k < 112) :
    b.getMsbD (16 * start + 2 * k) = f.getMsbD k ∧ b.getMsbD (16 * start + 1 + 2 * k) = !f.getMsbD k := by
  have hfirst : 16 * start + 2 * k = 16 * (start + k / 8) + 2 * (k % 8) := by omega
  have hsecond : 16 * start + 1 + 2 * k = 16 * (start + k / 8) + (2 * (k % 8) + 1) := by omega
  have hpair := h (k / 8) (by omega) (k % 8) (by omega)
  rw [show 14 - 2 * (k % 8) = 15 - (2 * (k % 8) + 1) by omega, add_right_comm, ← mul_add,
    pair_getLsbD b (by omega) (by omega), pair_getLsbD b (by omega) (by omega),
    ← Scope.getMsbD_eq_byteAt_getLsbD (n := 14) f hk, ← hfirst, ← hsecond] at hpair
  exact hpair

/-- Settles O29: the two frames begin with words 25 and 90 of the buffer. -/
theorem frameBitsAppearAsPairs : Obligations.FrameBitsAppearAsPairs := by
  intro even odd s
  obtain ⟨-, -, -, heven, -, -, -, hodd, -⟩ := bufferLayout_modBuffer even (some odd)
  refine ⟨_, exec_of_effect (w := .modBuf even (some odd)) rfl s, fun k hk => ?_⟩
  obtain ⟨heven0, heven1⟩ := pair_of_modulatedAt (start := 25) heven (by omega) hk
  obtain ⟨hodd0, hodd1⟩ := pair_of_modulatedAt (start := 90) hodd (by omega) hk
  exact ⟨heven0, heven1, hodd0, hodd1⟩

end Sys2Proof.Encoding
end

section
/-! PROOFS. The family of spec/40_altitude.md: the altitude quantity n (R58), the two layouts of its code
(R48, R59, R60), the operation ALTENC (R61), and the steps of 25 ft (R63). -/

namespace Sys2Proof.Altitude

open Sys2Proof Sys2Proof.Machine Sys2Proof.Laws Sys2Proof.Registers Sys2Proof.Encoding

/-! ### The altitude quantity n (R58) -/

/-- Cutting the floor to 12 bits is its remainder modulo 4096, for a negative one as well. -/
theorem altQuantity_toNat (a : ℚ) : ((altQuantity a).toNat : ℤ) = Reference.altQuantity a := by
  have hfloor : ⌊((a : ℝ) + 1000) / 25⌋ = ⌊(a + 1000) / 25⌋ := by
    rw [← Rat.floor_cast (α := ℝ)]
    push_cast
    rfl
  rw [Reference.altQuantity, hfloor, altQuantity, BitVec.toNat_ofInt]
  exact Int.toNat_of_nonneg (Int.emod_nonneg _ (by decide))

/-- 25 ft are one step of n, modulo 4096 (R63). -/
theorem altQuantity_add_step (a : ℚ) : altQuantity (a + 25) = altQuantity a + 1#12 := by
  have hstep : (a + 25 + 1000) / 25 = (a + 1000) / 25 + 1 := by ring
  rw [altQuantity, hstep, Int.floor_add_one, BitVec.ofInt_add]
  rfl

/-! ### The two layouts of the code (R48, R59, R60) -/

/-- The shifts and masks of R59 put n[10:5], M, n[4], Q and n[3:0] side by side; n[11] falls off. -/
theorem altCode25_layout (n : BitVec 12) :
    altCode25 n = n.extractLsb' 5 6 ++ 0#1 ++ n.extractLsb' 4 1 ++ 1#1 ++ n.extractLsb' 0 4 := by
  apply BitVec.eq_of_getLsbD_eq
  intro i hi
  interval_cases i
  all_goals
    simp (disch := omega) only [bit_append_high, bit_append_low, Nat.reduceSub]
    simp [altCode25]

/-- The shift of R60 puts four zeros after n[11:3]. -/
theorem altCode100_layout (n : BitVec 12) : altCode100 n = n.extractLsb' 3 9 ++ 0#4 := by
  apply BitVec.eq_of_getLsbD_eq
  intro i hi
  interval_cases i
  all_goals
    simp (disch := omega) only [bit_append_high, bit_append_low, Nat.reduceSub]
    simp [altCode100]

/-- The 25-ft code of n is the data format with n[10:0] as its datum. -/
theorem decodeAltcode25ft_altCode25 (n : BitVec 12) :
    decodeAltcode25ft (altCode25 n) = .ok (.fmtAltcode25ft (n.extractLsb' 0 11)) := by
  rw [altCode25_layout, ← decodeAltcode25ft_fields (n.extractLsb' 0 11)]
  simp

/-- What the 25-ft decoder accepts: M is 0, Q is 1, and the remaining fields are the datum. -/
theorem decodeAltcode25ft_eq_ok {b : BitVec 13} {n : BitVec 11}
    (h : decodeAltcode25ft b = .ok (.fmtAltcode25ft n)) :
    b.extractLsb' 7 6 ++ b.extractLsb' 5 1 ++ b.extractLsb' 0 4 = n ∧
      b.getLsbD 4 = true ∧ b.getLsbD 6 = false := by
  unfold decodeAltcode25ft at h
  split at h
  next => cases h
  next hmarkers =>
    cases h
    obtain ⟨hM, hQ⟩ : b.getLsbD 6 = false ∧ b.getLsbD 4 = true := by simpa using hmarkers
    exact ⟨rfl, hQ, hM⟩

/-- Without bits 4 and 6, which are constant, the 25-ft code of n is n[10:0] (R63). -/
theorem altCode25_readBack (n : BitVec 12) :
    (altCode25 n).extractLsb' 7 6 ++ (altCode25 n).extractLsb' 5 1 ++ (altCode25 n).extractLsb' 0 4 =
        n.extractLsb' 0 11 ∧
      (altCode25 n).getLsbD 4 = true ∧ (altCode25 n).getLsbD 6 = false :=
  decodeAltcode25ft_eq_ok (decodeAltcode25ft_altCode25 n)

/-! ### ALTENC (R61, R121) -/

/-- ALTENC on a finite altitude. -/
theorem exec_altenc_finite {alt : Binary64} (h : Reference.Finite alt) (sel : Bool) (s : State) :
    exec (.altenc alt sel) s = .next ((s.writeAltcode (altCode sel (val alt))).complete .none) :=
  exec_of_effect (i := .altenc alt sel) (w := .altcode _)
    (congrArg some (if_pos ((isFinite_iff alt).mpr h))) s

/-- ALTENC on a NaN or an infinity. -/
theorem exec_altenc_nonFinite {alt : Binary64} (h : ¬ Reference.Finite alt) (sel : Bool) (s : State) :
    exec (.altenc alt sel) s = .next (s.complete .nonFinite) :=
  exec_of_effect (i := .altenc alt sel) (w := .failure .nonFinite)
    (congrArg some (if_neg (mt (isFinite_iff alt).mp h))) s

/-- Settles O11: the n of the model is the n of R58 over the reals, and its code is laid out as R48 says. -/
theorem altencWritesTheAltitudeCode : Obligations.AltencWritesTheAltitudeCode := by
  refine fun alt sel s => ⟨fun hfin => ⟨altQuantity (val alt), altQuantity_toNat _, ?_⟩,
    fun hnon => exec_altenc_nonFinite hnon sel s⟩
  rw [← altCode25_layout, ← altCode100_layout]
  exact exec_altenc_finite hfin sel s

/-- Settles O12: the second n is one step above the first, and n[10:0] is read back
from each code. -/
theorem altencIsMonotonicInSteps : Obligations.AltencIsMonotonicInSteps := by
  intro a b s ha hb hstep
  have hn : altQuantity (val b) = altQuantity (val a) + 1#12 := by rw [hstep, altQuantity_add_step]
  obtain ⟨hdatumA, hQa, hMa⟩ := altCode25_readBack (altQuantity (val a))
  obtain ⟨hdatumB, hQb, hMb⟩ := altCode25_readBack (altQuantity (val b))
  refine ⟨altQuantity (val a), _, _, altQuantity_toNat _, ?_, exec_altenc_finite ha true s,
    exec_altenc_finite hb true s, hdatumA, ?_, hQa, hMa, hQb, hMb⟩
  · rw [← hn, altQuantity_toNat]
  · rw [← hn]
    exact hdatumB

end Sys2Proof.Altitude
end

section
/-! PROOFS. The family of spec/41_cpr.md: the code of a coordinate (R71, R72), the zone sizes over the reals
(R65 to R69), the operation CPRENC (R73), and its corner cases (R74). -/

namespace Sys2Proof.Cpr

open Sys2Proof Sys2Proof.Machine Sys2Proof.Laws Sys2Proof.Registers

/-! ### The code of a coordinate (R70, R71, R72) -/

theorem cprScale_eq (surface : Bool) : (cprScale surface : ℤ) = Reference.scale surface := by
  cases surface <;> rfl

theorem cprScale_pos (surface : Bool) : 0 < (cprScale surface : ℤ) := by
  cases surface <;> decide

/-- The outer `mod scale` leaves a value below the scale, so the 19 bits cut nothing off. -/
theorem cprCode_toNat (surface : Bool) (x d : ℚ) :
    ((cprCode surface x d).toNat : ℤ) =
      ⌊cprScale surface * (realMod x d / d) + 1 / 2⌋ % cprScale surface := by
  have hscale : (cprScale surface : ℤ) ≤ 2 ^ 19 := by cases surface <;> decide
  rw [cprCode, BitVec.toNat_ofInt]
  generalize ⌊(cprScale surface : ℚ) * (realMod x d / d) + 1 / 2⌋ = n
  have hnonneg := Int.emod_nonneg n (cprScale_pos surface).ne'
  have hlt := Int.emod_lt_of_pos n (cprScale_pos surface)
  omega

theorem cprCode_toNat_lt (surface : Bool) (x d : ℚ) : (cprCode surface x d).toNat < cprScale surface := by
  have hlt := Int.emod_lt_of_pos ⌊cprScale surface * (realMod x d / d) + 1 / 2⌋ (cprScale_pos surface)
  rw [← cprCode_toNat] at hlt
  exact_mod_cast hlt

theorem realMod_cast (x m : ℚ) : ((realMod x m : ℚ) : ℝ) = Reference.realMod x m := by
  rw [realMod, Reference.realMod, ← Rat.cast_div, Rat.floor_cast]
  push_cast
  rfl

/-- The code in rational arithmetic is the code over the reals. -/
theorem cprCode_eq_reference (surface : Bool) (x d : ℚ) :
    ((cprCode surface x d).toNat : ℤ) = Reference.code surface x d := by
  have hfloor : ⌊(Reference.scale surface : ℝ) * (Reference.realMod x d / d) + 1 / 2⌋ =
      ⌊cprScale surface * (realMod x d / d) + 1 / 2⌋ := by
    rw [← Rat.floor_cast (α := ℝ), ← cprScale_eq]
    push_cast
    rw [realMod_cast]
  rw [cprCode_toNat, Reference.code, hfloor, cprScale_eq]

/-- Whole zones, any number of them, may be taken off the coordinate: they move the rounded position by a
multiple of the scale, which the outer `mod scale` removes (R71). -/
theorem cprCode_eq_sub_zones (surface : Bool) (x : ℚ) {d : ℚ} (hd : d ≠ 0) (n : ℤ) :
    cprCode surface x d = BitVec.ofInt 19
      (⌊(Reference.scale surface : ℚ) * ((x - d * n) / d) + 1 / 2⌋ % Reference.scale surface) := by
  have hshift : (Reference.scale surface : ℚ) * ((x - d * n) / d) + 1 / 2 =
      (Reference.scale surface * (realMod x d / d) + 1 / 2) +
        ((Reference.scale surface * (⌊x / d⌋ - n) : ℤ) : ℚ) := by
    rw [realMod]
    push_cast
    field_simp
    ring
  have hcast : ((cprScale surface : ℕ) : ℚ) = (Reference.scale surface : ℚ) := by
    rw [← cprScale_eq, Int.cast_natCast]
  rw [hshift, Int.floor_add_intCast, Int.add_mul_emod_self_left, cprCode, hcast, cprScale_eq]

/-- Settles O18: the truncated quotient counts whole zones as well as the floored one does. -/
theorem truncatingRemainderGivesTheSameCode : Obligations.TruncatingRemainderGivesTheSameCode :=
  fun surface x _ hd => cprCode_eq_sub_zones surface x hd.ne' _

/-- A whole number of zones has the code 0 (R74 (c)). -/
theorem cprCode_zones (surface : Bool) (k : ℤ) {d : ℚ} (hd : d ≠ 0) :
    cprCode surface (k * d) d = 0 := by
  have hhalf : ⌊(1 / 2 : ℚ)⌋ = 0 := by norm_num
  rw [cprCode_eq_sub_zones surface _ hd k, mul_comm d, sub_self, zero_div, mul_zero, zero_add, hhalf,
    Int.zero_emod]
  rfl

/-! ### The sizes of the zones (R65 to R69) -/

theorem cprSpan_eq (surface : Bool) : cprSpan surface = Reference.span surface := by
  cases surface <;> rfl

theorem cprDLat_pos (par surface : Bool) : 0 < cprDLat par surface := by
  cases par <;> cases surface <;> decide +kernel

theorem cprDLat_cast (par surface : Bool) :
    ((cprDLat par surface : ℚ) : ℝ) = Reference.dLat par surface := by
  have hnz : (cprNz par : ℤ) = Reference.nz par := by cases par <;> rfl
  have hne : cprNz par ≠ 0 := by cases par <;> decide
  rw [cprDLat, if_neg hne, cprSpan_eq, Reference.dLat, ← hnz]
  push_cast
  rfl

/-- The number of longitude zones at a latitude operand: the table of R68 is the formula of R67. -/
theorem cprNl_eq_reference (nlZero : ℕ) (lat : Binary64) :
    (cprNl nlZero (val lat) : ℤ) = Reference.nl nlZero (val lat : ℚ) := by
  rw [Reference.nl, ← Rat.cast_abs]
  by_cases hpole : 87 ≤ |val lat|
  · rw [cprNl, if_pos hpole, if_pos (by exact_mod_cast hpole)]
    rfl
  rw [if_neg (by exact_mod_cast hpole)]
  by_cases hequator : val lat = 0
  · rw [cprNl, if_neg hpole, if_pos hequator, if_pos (by exact_mod_cast hequator)]
  · rw [if_neg (by exact_mod_cast hequator)]
    exact cprNl_eq_nlFormula hequator (not_le.mp hpole) (onGrid_val lat)

theorem cprDLon_cast (nlZero : ℕ) (lat : Binary64) (par surface : Bool) :
    ((cprDLon nlZero (val lat) par surface : ℚ) : ℝ) =
      Reference.dLon nlZero (val lat : ℚ) par surface := by
  have hzones : ((max (cprNl nlZero (val lat) - par.toNat) 1 : ℕ) : ℤ) =
      max (Reference.nl nlZero (val lat : ℚ) - if par then 1 else 0) 1 := by
    have hpar : (if par then 1 else 0 : ℤ) = par.toNat := by cases par <;> rfl
    rw [← cprNl_eq_reference, hpar]
    omega
  rw [cprDLon, cprSpan_eq, Reference.dLon, ← hzones]
  push_cast
  rfl

/-- From 87 degrees on the zones of both parities are the undivided span (R74 (a)). -/
theorem cprDLon_polar {nlZero : ℕ} {φ : ℚ} (h : 87 ≤ |φ|) (par surface : Bool) :
    cprDLon nlZero φ par surface = cprSpan surface := by
  have hzones : max (cprNl nlZero φ - par.toNat) 1 = 1 := by
    rw [cprNl, if_pos h]
    cases par <;> rfl
  rw [cprDLon, hzones, Nat.cast_one, div_one]

/-! ### The two codes (R71, R72, R74) -/

theorem cprLat_toNat (φ : ℚ) (par surface : Bool) :
    ((cprLat φ par surface).toNat : ℤ) = Reference.code surface φ (Reference.dLat par surface) := by
  rw [cprLat, cprCode_eq_reference, cprDLat_cast]

theorem cprLon_toNat (nlZero : ℕ) (lat : Binary64) (lam : ℚ) (par surface : Bool) :
    ((cprLon nlZero (val lat) lam par surface).toNat : ℤ) =
      Reference.code surface lam (Reference.dLon nlZero (val lat : ℚ) par surface) := by
  rw [cprLon, cprCode_eq_reference, cprDLon_cast]

/-- A whole number of latitude zones, counted over the reals (R74 (c)). -/
theorem cprLat_zones {φ : ℚ} {par surface : Bool} {k : ℤ} (h : (φ : ℝ) = k * Reference.dLat par surface) :
    cprLat φ par surface = 0 := by
  have hzones : φ = k * cprDLat par surface := by
    rw [← cprDLat_cast] at h
    exact_mod_cast h
  rw [cprLat, hzones, cprCode_zones surface k (cprDLat_pos par surface).ne']

/-- From 87 degrees on the parity does not matter to the longitude code (R74 (a)). -/
theorem cprLon_polar {nlZero : ℕ} {φ : ℚ} (h : 87 ≤ |φ|) (lam : ℚ) (surface : Bool) :
    cprLon nlZero φ lam false surface = cprLon nlZero φ lam true surface := by
  rw [cprLon, cprLon, cprDLon_polar h, cprDLon_polar h]

/-! ### CPRENC (R73, R121) -/

theorem isFinite_and_iff (lat lon : Binary64) :
    (isFinite lat && isFinite lon) = true ↔ Reference.Finite lat ∧ Reference.Finite lon := by
  rw [Bool.and_eq_true, isFinite_iff, isFinite_iff]

/-- CPRENC on finite coordinates. -/
theorem exec_cprenc_finite {lat lon : Binary64} (hlat : Reference.Finite lat) (hlon : Reference.Finite lon)
    (par surface : Bool) (s : State) :
    exec (.cprenc lat lon par surface) s =
      .next ((s.writeCpr (cprLat (val lat) par surface)
        (cprLon Config.nlZero (val lat) (val lon) par surface)).complete .none) :=
  exec_of_effect (i := .cprenc lat lon par surface) (w := .cpr _ _)
    (congrArg some (if_pos ((isFinite_and_iff lat lon).mpr ⟨hlat, hlon⟩))) s

/-- CPRENC on a NaN or an infinity in either operand. -/
theorem exec_cprenc_nonFinite {lat lon : Binary64} (h : ¬ (Reference.Finite lat ∧ Reference.Finite lon))
    (par surface : Bool) (s : State) :
    exec (.cprenc lat lon par surface) s = .next (s.complete .nonFinite) :=
  exec_of_effect (i := .cprenc lat lon par surface) (w := .failure .nonFinite)
    (congrArg some (if_neg (mt (isFinite_and_iff lat lon).mp h))) s

/-- Settles O13: the codes of the model are those over the reals. -/
theorem cprencWritesTheCodesOfTheFormulas : Obligations.CprencWritesTheCodesOfTheFormulas :=
  fun _ _ par surface s => ⟨fun ⟨hlat, hlon⟩ => ⟨_, _, cprLat_toNat _ par surface,
    cprLon_toNat _ _ _ par surface, exec_cprenc_finite hlat hlon par surface s⟩,
    fun hnon => exec_cprenc_nonFinite hnon par surface s⟩

/-- Settles O15: a code is below the scale, which is 2^17 for an airborne position. -/
theorem airborneCodesFitSeventeenBits : Obligations.AirborneCodesFitSeventeenBits :=
  fun _ _ par s hlat hlon => ⟨_, exec_cprenc_finite hlat hlon par false s,
    cprCode_toNat_lt false _ _, cprCode_toNat_lt false _ _⟩

/-- Settles O17: the latitude is a whole number of zones. -/
theorem zoneBoundaryHasCodeZero : Obligations.ZoneBoundaryHasCodeZero :=
  fun _ _ par surface _ s hlat hlon hboundary =>
    ⟨_, exec_cprenc_finite hlat hlon par surface s, cprLat_zones hboundary⟩

/-- Settles O16: both parities divide the longitude into the same zones. -/
theorem polarLongitudeCodesAgree : Obligations.PolarLongitudeCodesAgree :=
  fun _ _ surface s hlat hlon hpolar => ⟨_, _, exec_cprenc_finite hlat hlon false surface s,
    exec_cprenc_finite hlat hlon true surface s, cprLon_polar hpolar _ surface⟩

end Sys2Proof.Cpr
end

section
/-! PROOFS. The family of spec/42_crc24.md: bit vectors as polynomials over the two-element field, the
division of R78 and the shift register of R79 (b) as remainders by the generator (R76), and CRC24 (R80). -/

namespace Sys2Proof.Crc

open Sys2Proof Sys2Proof.Machine Sys2Proof.Laws Sys2Proof.Registers Polynomial

/-! ### Bit vectors as polynomials over the two-element field (R79 (a)) -/

/-- Bit i is the coefficient of x^i. -/
@[simp] theorem poly_coeff {w : ℕ} (b : BitVec w) (i : ℕ) :
    (Reference.poly b).coeff i = if b.getLsbD i then 1 else 0 := by
  have hterm (j : ℕ) : (if b.getLsbD j then (X : (ZMod 2)[X]) ^ j else 0).coeff i =
      if i = j then (if b.getLsbD i then 1 else 0) else 0 := by
    by_cases hij : i = j
    · subst hij
      cases b.getLsbD i <;> simp
    · cases b.getLsbD j <;> simp [coeff_X_pow, hij]
  rw [Reference.poly, finsetSum_coeff, Finset.sum_congr rfl fun j _ => hterm j, Finset.sum_ite_eq]
  by_cases hi : i < w
  · rw [if_pos (Finset.mem_range.mpr hi)]
  · simp [hi, BitVec.getLsbD_of_ge b i (by omega)]

theorem poly_coeff_eq_zero_iff {w : ℕ} (b : BitVec w) (i : ℕ) :
    (Reference.poly b).coeff i = 0 ↔ b.getLsbD i = false := by
  cases h : b.getLsbD i <;> simp [h]

theorem poly_injective {w : ℕ} : Function.Injective (Reference.poly (w := w)) := by
  intro a b hab
  refine BitVec.eq_of_getLsbD_eq fun i _ => ?_
  have hcoeff : (Reference.poly a).coeff i = 0 ↔ (Reference.poly b).coeff i = 0 := by rw [hab]
  rwa [poly_coeff_eq_zero_iff, poly_coeff_eq_zero_iff, ← Bool.not_eq_true, ← Bool.not_eq_true,
    not_iff_not, ← Bool.eq_iff_iff] at hcoeff

/-- Exclusive or is addition: two equal coefficients add to 0. -/
theorem poly_xor {w : ℕ} (a b : BitVec w) :
    Reference.poly (a ^^^ b) = Reference.poly a + Reference.poly b := by
  ext i
  rw [coeff_add, poly_coeff, poly_coeff, poly_coeff, BitVec.getLsbD_xor]
  cases a.getLsbD i <;> cases b.getLsbD i <;> decide

/-- Moving the bits up by n places multiplies by x^n, when no bit is lost. -/
theorem poly_eq_mul_X_pow {v w n : ℕ} {b : BitVec w} {c : BitVec v}
    (hbit : ∀ i, c.getLsbD i = (decide (n ≤ i) && b.getLsbD (i - n))) :
    Reference.poly c = Reference.poly b * X ^ n := by
  ext i
  rw [coeff_mul_X_pow', poly_coeff, poly_coeff, hbit]
  by_cases hi : n ≤ i <;> simp [hi]

/-- Dropping high bits that are 0 leaves the polynomial as it is. -/
theorem poly_setWidth {v w : ℕ} {b : BitVec w} (hhigh : ∀ i, v ≤ i → b.getLsbD i = false) :
    Reference.poly (b.setWidth v) = Reference.poly b := by
  ext i
  rw [poly_coeff, poly_coeff, BitVec.getLsbD_setWidth]
  by_cases hi : i < v
  · simp [hi]
  · simp [hhigh i (by omega)]

/-- The message followed by 24 zero bits is M(x)·x^24 (R77). -/
theorem poly_crcScratch (m : Msg) : Reference.poly (crcScratch m) = Reference.poly m * X ^ 24 := by
  refine poly_eq_mul_X_pow fun i => ?_
  rw [crcScratch, BitVec.getLsbD_append]
  by_cases hi : i < 24
  · simp [hi]
  · simp [hi, Nat.le_of_not_lt hi]

/-! ### Remainders by the generator (R76) -/

/-- Above its leading bit 24 the generator has none. -/
theorem gen_high {i : ℕ} (hi : 24 < i) : Config.gen.getLsbD i = false :=
  BitVec.getLsbD_of_ge _ _ hi

theorem gen_monic : (Reference.poly Config.gen).Monic := by
  refine monic_of_natDegree_le_of_coeff_eq_one 24 (natDegree_le_iff_coeff_eq_zero.mpr fun i hi => ?_) ?_
  · exact (poly_coeff_eq_zero_iff _ _).mpr (gen_high hi)
  · rw [poly_coeff]; rfl

theorem gen_degree : (Reference.poly Config.gen).degree = (24 : ℕ) := by
  refine degree_eq_of_le_of_coeff_ne_zero (degree_le_iff_coeff_zero _ _ |>.mpr fun i hi => ?_) ?_
  · exact (poly_coeff_eq_zero_iff _ _).mpr (gen_high (by exact_mod_cast hi))
  · rw [Ne, poly_coeff_eq_zero_iff]; decide

/-- A bit vector without a bit at 24 or above is its own remainder. -/
theorem poly_mod_gen_self {w : ℕ} {b : BitVec w} (hhigh : ∀ i, 24 ≤ i → b.getLsbD i = false) :
    Reference.poly b %ₘ Reference.poly Config.gen = Reference.poly b := by
  rw [modByMonic_eq_self_iff gen_monic, gen_degree, degree_lt_iff_coeff_zero]
  exact fun i hi => (poly_coeff_eq_zero_iff _ _).mpr (hhigh i hi)

/-- A bit vector that is a remainder has no bit at 24 or above. -/
theorem high_of_poly_eq_mod {w : ℕ} {b : BitVec w} {p : (ZMod 2)[X]}
    (hb : Reference.poly b = p %ₘ Reference.poly Config.gen) {i : ℕ} (hi : 24 ≤ i) :
    b.getLsbD i = false := by
  have hdegree := degree_modByMonic_lt p gen_monic
  rw [← hb, gen_degree, degree_lt_iff_coeff_zero] at hdegree
  exact (poly_coeff_eq_zero_iff _ _).mp (hdegree i hi)

/-- Adding a multiple of the generator does not change the remainder. -/
theorem add_gen_mul_mod (p q : (ZMod 2)[X]) :
    (p + Reference.poly Config.gen * q) %ₘ Reference.poly Config.gen = p %ₘ Reference.poly Config.gen := by
  rw [add_modByMonic, self_mul_modByMonic gen_monic, add_zero]

/-! ### The division (R78) -/

/-- The generator moved into the window [k, k+24] of the buffer, bit by bit. -/
theorem gen_window_getLsbD {k : ℕ} (hk : k < 88) (i : ℕ) :
    (Config.gen.setWidth 112 <<< (87 - k)).getLsbD i =
      (decide (87 - k ≤ i) && Config.gen.getLsbD (i - (87 - k))) := by
  rw [BitVec.getLsbD_shiftLeft, BitVec.getLsbD_setWidth]
  by_cases hi : i < 112
  · simp only [hi, show i - (87 - k) < 112 by omega, decide_true, Bool.true_and, ← decide_not, Nat.not_lt]
  · simp [hi, gen_high (show 24 < i - (87 - k) by omega)]

theorem poly_gen_window {k : ℕ} (hk : k < 88) :
    Reference.poly (Config.gen.setWidth 112 <<< (87 - k)) = Reference.poly Config.gen * X ^ (87 - k) :=
  poly_eq_mul_X_pow (gen_window_getLsbD hk)

/-- The leading bit of the generator falls on bit k of the buffer, and no bit of it stands before. -/
theorem gen_window_high {k : ℕ} (hk : k < 88) {i : ℕ} (hi : 111 - k ≤ i) :
    (Config.gen.setWidth 112 <<< (87 - k)).getLsbD i = decide (i = 111 - k) := by
  rw [gen_window_getLsbD hk]
  rcases Nat.eq_or_lt_of_le hi with rfl | hlt
  · rw [show 111 - k - (87 - k) = 24 by omega, decide_eq_true (show 87 - k ≤ 111 - k by omega)]
    simp only [decide_true]
    rfl
  · rw [gen_high (by omega), Bool.and_false, decide_eq_false (by omega)]

/-- A step of the division adds 0 or a multiple of the generator. -/
theorem poly_crcStep_mod (buf : Frame) {k : ℕ} (hk : k < 88) :
    Reference.poly (crcStep buf k) %ₘ Reference.poly Config.gen =
      Reference.poly buf %ₘ Reference.poly Config.gen := by
  unfold crcStep
  split
  · rw [poly_xor, poly_gen_window hk, add_gen_mul_mod]
  · rfl

/-- Step k clears bit k of the buffer and leaves the bits before it 0. -/
theorem crcStep_high {buf : Frame} {k : ℕ} (hk : k < 88)
    (hhigh : ∀ i, 112 - k ≤ i → buf.getLsbD i = false) {i : ℕ} (hi : 111 - k ≤ i) :
    (crcStep buf k).getLsbD i = false := by
  have hbit : i = 111 - k ∨ buf.getLsbD i = false :=
    (Nat.eq_or_lt_of_le hi).imp Eq.symm fun hlt => hhigh i (by omega)
  have hmsb : buf.getMsbD k = buf.getLsbD (111 - k) := by simp [BitVec.getMsbD, show k < 112 by omega]
  unfold crcStep
  rw [hmsb]
  split
  next hset =>
    rw [BitVec.getLsbD_xor, gen_window_high hk hi]
    by_cases hik : i = 111 - k
    · rw [hik, hset, decide_eq_true rfl]; rfl
    · rw [hbit.resolve_left hik, decide_eq_false hik]; rfl
  next hclear =>
    rcases hbit with rfl | hbuf
    · exact Bool.eq_false_of_not_eq_true hclear
    · exact hbuf

/-- The invariant of the division: after k steps the first k bits are 0, and the remainder is that of the
buffer it began with. -/
theorem crcSteps_invariant (buf : Frame) {k : ℕ} (hk : k ≤ 88) :
    (∀ i, 112 - k ≤ i → ((List.range k).foldl crcStep buf).getLsbD i = false) ∧
      Reference.poly ((List.range k).foldl crcStep buf) %ₘ Reference.poly Config.gen =
        Reference.poly buf %ₘ Reference.poly Config.gen := by
  induction k with
  | zero => exact ⟨fun i hi => BitVec.getLsbD_of_ge _ _ hi, rfl⟩
  | succ k ih =>
    obtain ⟨hhigh, hmod⟩ := ih (by omega)
    rw [List.range_succ, List.foldl_append, List.foldl_cons, List.foldl_nil]
    exact ⟨fun i hi => crcStep_high hk hhigh (by omega), (poly_crcStep_mod _ hk).trans hmod⟩

/-- R79 (a): what the division leaves in the last 3 bytes is the remainder of M(x)·x^24. -/
theorem poly_crc24 (m : Msg) :
    Reference.poly (crc24 m) = (Reference.poly m * X ^ 24) %ₘ Reference.poly Config.gen := by
  obtain ⟨hhigh, hmod⟩ := crcSteps_invariant (crcScratch m) le_rfl
  calc Reference.poly (crc24 m)
      = Reference.poly (crcDivide (crcScratch m)) := by
        rw [crc24, ← BitVec.setWidth_eq_extractLsb' (by omega), crcDivide, poly_setWidth hhigh]
    _ = Reference.poly (crcDivide (crcScratch m)) %ₘ Reference.poly Config.gen :=
        (poly_mod_gen_self hhigh).symm
    _ = (Reference.poly m * X ^ 24) %ₘ Reference.poly Config.gen := by
        rw [crcDivide, hmod, poly_crcScratch]

/-- Settles O19: CRCREG receives `crc24`. -/
theorem crc24WritesThePolynomialRemainder : Obligations.Crc24WritesThePolynomialRemainder :=
  fun msg s => ⟨crc24 msg, poly_crc24 msg, exec_of_effect (i := .crc24 msg) (w := .crc _) rfl s⟩

/-- The CRC of an exclusive or, because the remainder of a sum is the sum of the remainders. -/
theorem crc24_xor (a b : Msg) : crc24 (a ^^^ b) = crc24 a ^^^ crc24 b := by
  apply poly_injective
  rw [poly_xor, poly_crc24, poly_crc24, poly_crc24, poly_xor, add_mul, add_modByMonic]

/-- Settles O21: the zero message is the exclusive or of a message with itself. -/
theorem crcIsLinear : Obligations.CrcIsLinear :=
  ⟨crc24_xor, by simpa using crc24_xor 0 0⟩

/-! ### The shift register (R79 (b)) -/

/-- A register whose bit 24 is 0 has no bit at 24 or above. -/
theorem register_high {r : BitVec 25} (hr : r.getLsbD 24 = false) (i : ℕ) (hi : 24 ≤ i) :
    r.getLsbD i = false := by
  rcases Nat.eq_or_lt_of_le hi with rfl | hlt
  · exact hr
  · exact BitVec.getLsbD_of_ge r i hlt

/-- Shifting a bit into a register whose bit 24 is 0. -/
theorem poly_shiftIn {r : BitVec 25} (hr : r.getLsbD 24 = false) (bit : Bool) :
    Reference.poly ((r <<< 1) ||| (BitVec.ofBool bit).setWidth 25) =
      Reference.poly r * X + Reference.poly (BitVec.ofBool bit) := by
  ext i
  cases i with
  | zero => simp
  | succ i =>
    rw [coeff_add, coeff_mul_X, poly_coeff, poly_coeff, poly_coeff]
    by_cases hi : i < 24
    · simp [show i + 1 < 25 by omega, BitVec.getLsbD_eq_getElem (show i < 25 by omega)]
    · simp [register_high hr i (by omega)]

/-- A step of the shift register takes the remainder: adding the generator clears bit 24. -/
theorem poly_shiftStep {r : BitVec 25} (hr : r.getLsbD 24 = false) (bit : Bool) :
    Reference.poly (Reference.shiftStep r bit) =
      (Reference.poly r * X + Reference.poly (BitVec.ofBool bit)) %ₘ Reference.poly Config.gen := by
  rw [← poly_shiftIn hr]
  unfold Reference.shiftStep
  dsimp only
  generalize (r <<< 1) ||| (BitVec.ofBool bit).setWidth 25 = r'
  split
  next hset =>
    have hclear : (r' ^^^ Config.gen).getLsbD 24 = false := by rw [BitVec.getLsbD_xor, hset]; rfl
    rw [← poly_mod_gen_self (register_high hclear), poly_xor]
    simpa using add_gen_mul_mod (Reference.poly r') 1
  next hclear => exact (poly_mod_gen_self (register_high (Bool.eq_false_of_not_eq_true hclear))).symm

/-- The first k + 1 bits of a frame are its first k bits with bit k behind them. -/
theorem poly_firstBits_succ (f : Frame) {k : ℕ} (hk : k < 112) :
    Reference.poly (f >>> (112 - (k + 1))) =
      Reference.poly (f >>> (112 - k)) * X + Reference.poly (BitVec.ofBool (f.getMsbD k)) := by
  ext i
  cases i with
  | zero => simp [BitVec.getMsbD, hk, show 112 - (k + 1) = 111 - k by omega]
  | succ i => simp [show 111 - k + (i + 1) = 112 - k + i by omega]

/-- The remainder may be taken before the next bit is shifted in. -/
theorem mod_mul_X_add_mod (p q : (ZMod 2)[X]) :
    (p %ₘ Reference.poly Config.gen * X + q) %ₘ Reference.poly Config.gen =
      (p * X + q) %ₘ Reference.poly Config.gen := by
  have hp : p * X + q = p %ₘ Reference.poly Config.gen * X + q +
      Reference.poly Config.gen * (p /ₘ Reference.poly Config.gen * X) := by
    conv_lhs => rw [← modByMonic_add_div p (Reference.poly Config.gen)]
    ring
  rw [hp, add_gen_mul_mod]

/-- The invariant of the shift register: after k bits it holds the remainder of those k bits. -/
theorem poly_shiftSteps (f : Frame) {k : ℕ} (hk : k ≤ 112) :
    Reference.poly ((List.range k).foldl (fun r j => Reference.shiftStep r (f.getMsbD j)) 0) =
      Reference.poly (f >>> (112 - k)) %ₘ Reference.poly Config.gen := by
  induction k with
  | zero =>
    have hnone : f >>> (112 - 0) = 0 := BitVec.ushiftRight_eq_zero le_rfl
    have hzero (w : ℕ) : Reference.poly (0 : BitVec w) = 0 := by ext i; simp
    rw [hnone, hzero, zero_modByMonic]
    exact hzero 25
  | succ k ih =>
    have hreg := ih (by omega)
    rw [List.range_succ, List.foldl_append, List.foldl_cons, List.foldl_nil,
      poly_shiftStep (high_of_poly_eq_mod hreg le_rfl), hreg, mod_mul_X_add_mod, poly_firstBits_succ f hk]

/-- The register after all 112 bits. -/
theorem poly_shiftRegister (f : Frame) :
    Reference.poly (Reference.shiftRegister f) = Reference.poly f %ₘ Reference.poly Config.gen := by
  rw [Reference.shiftRegister, poly_shiftSteps f le_rfl, Nat.sub_self, BitVec.ushiftRight_zero]

/-- Settles O20: both forms leave the remainder of M(x)·x^24. -/
theorem crcIsTheShiftRegister : Obligations.CrcIsTheShiftRegister := by
  intro m
  have hreg : Reference.poly (Reference.shiftRegister (m ++ 0#24)) =
      (Reference.poly m * X ^ 24) %ₘ Reference.poly Config.gen :=
    (poly_shiftRegister (crcScratch m)).trans (by rw [poly_crcScratch])
  apply poly_injective
  rw [poly_crc24, poly_setWidth fun i hi => high_of_poly_eq_mod hreg hi, hreg]

end Sys2Proof.Crc
end

section
/-! PROOFS. The family of spec/43_frame.md: the ALT field and the altitudes it cannot tell apart (R84), the bytes
of the position frame (R85 to R87), and what every produced frame carries (R98). -/

namespace Sys2Proof.FrameAssembler

open Sys2Proof Sys2Proof.Machine Sys2Proof.Laws Sys2Proof.Registers Sys2Proof.Encoding Sys2Proof.Altitude
  Sys2Proof.Cpr Sys2Proof.Crc Polynomial

/-! ### The ALT field (R84, R89) -/

/-- The last fields of a concatenation, the lowest of them whole. -/
theorem extract_append_right {u v : ℕ} (x : BitVec u) (y : BitVec v) (a : ℕ) :
    (x ++ y).extractLsb' 0 (a + v) = x.extractLsb' 0 a ++ y := by
  rw [extract_append_across x y (Nat.zero_add v), extract_self]

/-- The ALT field of the model is the one R48 and R84 lay out: without bit 12 of the code, n[10] is gone. -/
theorem altField_eq_altBits (a : ℚ) : altField a = Reference.altBits (altQuantity a) := by
  have hcode : altField a = (altCode25 (altQuantity a)).extractLsb' 0 (5 + 1 + 1 + 1 + 4) :=
    BitVec.setWidth_eq_extractLsb' (by omega)
  rw [hcode, altCode25_layout, extract_append_right, extract_append_right, extract_append_right,
    extract_append_right, ← BitVec.setWidth_eq_extractLsb' (by omega),
    BitVec.setWidth_extractLsb'_of_le (by omega), Reference.altBits]

/-- Whole steps of 25 ft, any number of them, are added to n modulo 4096. -/
theorem altQuantity_add_steps (a : ℚ) (k : ℤ) :
    altQuantity (a + 25 * k) = altQuantity a + BitVec.ofInt 12 k := by
  have hsteps : (a + 25 * k + 1000) / 25 = (a + 1000) / 25 + k := by ring
  rw [altQuantity, hsteps, Int.floor_add_intCast, BitVec.ofInt_add, altQuantity]

/-- The ALT field holds n[9:0] only (R89 (e)). -/
theorem altBits_add_1024 (n : BitVec 12) : Reference.altBits (n + 1024#12) = Reference.altBits n := by
  have hlow : (n + 1024#12).setWidth 10 = n.setWidth 10 := by
    rw [BitVec.setWidth_add _ _ (by omega)]
    exact BitVec.add_zero _
  have hslice (s l : ℕ) (h : s + l ≤ 10) : (n + 1024#12).extractLsb' s l = n.extractLsb' s l := by
    rw [← BitVec.extractLsb'_setWidth_of_le h, hlow, BitVec.extractLsb'_setWidth_of_le h]
  rw [Reference.altBits, hslice 5 5 (by omega), hslice 4 1 (by omega), hslice 0 4 (by omega), Reference.altBits]

/-- 25600 ft are 1024 steps (R84). -/
theorem altField_add_25600 (a : ℚ) : altField (a + 25600) = altField a := by
  have hsteps : a + 25600 = a + 25 * ((1024 : ℤ) : ℚ) := by norm_num
  have hn : altQuantity (a + 25600) = altQuantity a + 1024#12 := by
    rw [hsteps, altQuantity_add_steps]
    rfl
  rw [altField_eq_altBits, altField_eq_altBits, hn, altBits_add_1024]

/-- The altitude enters a position frame through its ALT field alone. -/
theorem positionFrame_congr_alt {o : PosReport} {b : Binary64} (h : altField (val b) = altField (val o.alt))
    (nlZero : ℕ) (par : Bool) : positionFrame nlZero { o with alt := b } par = positionFrame nlZero o par := by
  simp only [positionFrame, positionMsg, h]

/-! ### POSFRM (R88, R121) -/

/-- POSFRM on a finite report. -/
theorem exec_posfrm_finite {o : PosReport} (h : Reference.FiniteReport o) (s : State) :
    exec (.posfrm o) s = .next ((s.writeFrames (positionFrame Config.nlZero o false)
      (positionFrame Config.nlZero o true)).complete .none) :=
  exec_of_effect (effect_posfrm h) s

/-- POSFRM on a NaN or an infinity in one of its operands. -/
theorem exec_posfrm_nonFinite {o : PosReport} (h : ¬ Reference.FiniteReport o) (s : State) :
    exec (.posfrm o) s = .next (s.complete .nonFinite) :=
  exec_of_effect (i := .posfrm o) (w := .failure .nonFinite)
    (congrArg some (if_neg (mt (posFinite_iff o).mp h))) s

/-- Settles O23: both altitudes have the same ALT field. -/
theorem positionAltitudeAliases : Obligations.PositionAltitudeAliases := by
  intro o b s hfin hb halt
  have ⟨_, hlat, hlon⟩ := hfin
  have hfield : altField (val b) = altField (val o.alt) := by rw [halt, altField_add_25600]
  have hfinB : Reference.FiniteReport { o with alt := b } := ⟨hb, hlat, hlon⟩
  refine ⟨_, exec_posfrm_finite hfin s, ?_⟩
  rw [exec_posfrm_finite hfinB, positionFrame_congr_alt hfield, positionFrame_congr_alt hfield]

/-! ### The bytes of the position frame (R45, R85 to R87) -/

theorem headerBytes_positionFrame (nlZero : ℕ) (o : PosReport) (par : Bool) :
    Reference.HeaderBytes o.ca o.icao (positionFrame nlZero o par) := by
  refine headerBytes_of_byteAt fun i hi => ?_
  rw [positionFrame, byteAt_frameOf _ (by omega), positionMsg, byteAt_append_left _ _ (by omega)]

section PositionMe

variable (tc : BitVec 5) (ss : BitVec 2) (nicsb : BitVec 1) (alt12 : BitVec 12) (tbit flag : BitVec 1)
  (lat17 lon17 : BitVec 17)

/-- A byte of the payload is 8 bits of its eight fields. -/
theorem byteAt_positionMe (i : ℕ) :
    byteAt (positionMe tc ss nicsb alt12 tbit flag lat17 lon17) i =
      (tc ++ ss ++ nicsb ++ alt12 ++ tbit ++ flag ++ lat17 ++ lon17).extractLsb' (56 - 8 * (i + 1)) 8 := rfl

/-- Byte 4 of the frame: the type code, the surveillance status and the NIC supplement bit. -/
theorem positionMe_byte0 : byteAt (positionMe tc ss nicsb alt12 tbit flag lat17 lon17) 0 =
    (tc.setWidth 8 <<< 3) ||| (ss.setWidth 8 <<< 1) ||| nicsb.setWidth 8 := by
  have hfields : byteAt (positionMe tc ss nicsb alt12 tbit flag lat17 lon17) 0 =
      (tc ++ ss ++ nicsb).setWidth 8 := by
    rw [byteAt_positionMe]
    simp (disch := omega) only [extract_append_high]
    exact (extract_self _).trans (BitVec.setWidth_eq _).symm
  rw [hfields]
  simp only [BitVec.setWidth_append_eq_shiftLeft_setWidth_or, BitVec.shiftLeft_or_distrib, ← BitVec.shiftLeft_add]

/-- Byte 6 of the frame, between the ALT field and the latitude code. -/
theorem positionMe_byte2 : byteAt (positionMe tc ss nicsb alt12 tbit flag lat17 lon17) 2 =
    ((alt12.extractLsb' 0 4).setWidth 8 <<< 4) ||| (tbit.setWidth 8 <<< 3) |||
      (flag.setWidth 8 <<< 2) ||| (lat17.extractLsb' 15 2).setWidth 8 := by
  have hfields : byteAt (positionMe tc ss nicsb alt12 tbit flag lat17 lon17) 2 =
      (alt12.extractLsb' 0 4 ++ tbit ++ flag ++ lat17.extractLsb' 15 2).setWidth 8 := by
    have halt : (tc ++ ss ++ nicsb ++ alt12 ++ tbit ++ flag).extractLsb' 0 (4 + 1 + 1) =
        alt12.extractLsb' 0 4 ++ tbit ++ flag := by
      rw [extract_append_right, extract_append_right, extract_append_low _ _ (by omega)]
    rw [byteAt_positionMe, extract_append_high _ _ (by omega), BitVec.setWidth_eq, ← halt]
    exact extract_append_across (a := 6) (b := 2) _ _ (by omega)
  rw [hfields]
  simp only [BitVec.setWidth_append_eq_shiftLeft_setWidth_or, BitVec.shiftLeft_or_distrib, ← BitVec.shiftLeft_add]

/-- Byte 8 of the frame, between the latitude code and the longitude code. -/
theorem positionMe_byte4 : byteAt (positionMe tc ss nicsb alt12 tbit flag lat17 lon17) 4 =
    ((lat17.extractLsb' 0 7).setWidth 8 <<< 1) ||| (lon17.extractLsb' 16 1).setWidth 8 := by
  have hfields : byteAt (positionMe tc ss nicsb alt12 tbit flag lat17 lon17) 4 =
      lat17.extractLsb' 0 7 ++ lon17.extractLsb' 16 1 := by
    rw [byteAt_positionMe, ← extract_append_low (tc ++ ss ++ nicsb ++ alt12 ++ tbit ++ flag) lat17 (by omega)]
    exact extract_append_across (a := 7) (b := 1) _ _ (by omega)
  rw [hfields]
  exact append_eq_shiftLeft_or _ _

end PositionMe

/-- The payload of the position frame; bytes 5, 7, 9 and 10 each lie within one field. -/
theorem positionBytes_positionFrame (nlZero : ℕ) (o : PosReport) (par : Bool) :
    Reference.PositionBytes o par (altField (val o.alt)) ((cprLat (val o.lat) par o.surface).setWidth 17)
      ((cprLon nlZero (val o.lat) (val o.lon) par o.surface).setWidth 17) (positionFrame nlZero o par) := by
  have hpayload (i : ℕ) (hi : i < 7) : byteAt (positionFrame nlZero o par) (4 + i) =
      byteAt (positionMe o.tc o.ss o.nicsb (altField (val o.alt)) o.tbit (BitVec.ofBool par)
        ((cprLat (val o.lat) par o.surface).setWidth 17)
        ((cprLon nlZero (val o.lat) (val o.lon) par o.surface).setWidth 17)) i := by
    rw [positionFrame, byteAt_frameOf _ (by omega), positionMsg,
      byteAt_append_right 4 _ _ rfl (by omega) (by omega), Nat.add_sub_cancel_left]
  constructor
  · exact (hpayload 0 (by omega)).trans (positionMe_byte0 ..)
  · rw [hpayload 1 (by omega), byteAt_positionMe]
    simp (disch := omega) only [extract_append_high, extract_append_low]
  · exact (hpayload 2 (by omega)).trans (positionMe_byte2 ..)
  · rw [hpayload 3 (by omega), byteAt_positionMe, extract_append_high _ _ (by omega)]
    exact extract_append_low _ _ (by omega)
  · exact (hpayload 4 (by omega)).trans (positionMe_byte4 ..)
  · exact (hpayload 5 (by omega)).trans (extract_append_low _ _ (by omega))
  · exact (hpayload 6 (by omega)).trans (extract_append_low _ _ (by omega))

/-- The model's position frame of one parity is that of the formulas over the reals. -/
theorem positionFrame_reference (nlZero : ℕ) (o : PosReport) (par : Bool) :
    Reference.PositionFrame nlZero o par (positionFrame nlZero o par) := by
  have hbytes := positionBytes_positionFrame nlZero o par
  rw [altField_eq_altBits] at hbytes
  refine ⟨altQuantity (val o.alt), _, _, altQuantity_toNat _, ?_, ?_, headerBytes_positionFrame nlZero o par,
    hbytes, crcBytes_frameOf _⟩
  · rw [BitVec.toNat_setWidth, ← cprLat_toNat]
    push_cast
    rfl
  · rw [BitVec.toNat_setWidth, ← cprLon_toNat]
    push_cast
    rfl

/-- Settles O22: the frames are `positionFrame` of the two parities. -/
theorem posfrmWritesBothFrames : Obligations.PosfrmWritesBothFrames := fun o s =>
  ⟨fun hfin => ⟨_, _, positionFrame_reference _ o false, positionFrame_reference _ o true,
    exec_posfrm_finite hfin s⟩, fun hnon => exec_posfrm_nonFinite hnon s⟩

/-! ### What every produced frame carries (R98) -/

/-- A concatenation as a polynomial: the left part is moved up by the width of the right part. -/
theorem poly_append {u v : ℕ} (x : BitVec u) (y : BitVec v) :
    Reference.poly (x ++ y) = Reference.poly x * X ^ v + Reference.poly y := by
  ext i
  rw [coeff_add, coeff_mul_X_pow', poly_coeff, poly_coeff, poly_coeff, BitVec.getLsbD_append]
  by_cases hi : i < v
  · simp [hi]
  · simp [hi, Nat.le_of_not_lt hi]

/-- The remainder of a whole frame is its CRC added to itself, which is 0 (R98 (b)). -/
theorem shiftRegister_frameOf (m : Msg) : (Reference.shiftRegister (frameOf m)).setWidth 24 = 0#24 := by
  have hzero : Reference.poly (Reference.shiftRegister (frameOf m)) = 0 := by
    rw [poly_shiftRegister, frameOf, poly_append, add_modByMonic, ← poly_crc24,
      poly_mod_gen_self fun _ => BitVec.getLsbD_of_ge _ _, CharTwo.add_self_eq_zero]
  have hreg : Reference.shiftRegister (frameOf m) = 0#25 := by
    apply poly_injective
    rw [hzero]
    ext i
    simp
  rw [hreg]
  rfl

/-- What R98 states of a produced frame, from its header. -/
theorem produced_frameOf {m : Msg} {ca : BitVec 3} {icao : BitVec 24}
    (h : Reference.HeaderBytes ca icao (frameOf m)) :
    Reference.CrcBytes (frameOf m) ∧ (Reference.shiftRegister (frameOf m)).setWidth 24 = 0#24 ∧
      byteAt (frameOf m) 0 = 0x88#8 ||| ca.setWidth 8 :=
  ⟨crcBytes_frameOf m, shiftRegister_frameOf m, h.b0⟩

/-- Settles O27: POSFRM and IDFRM write only frames that `frameOf` assembles behind the header. -/
theorem producedFramesCarryTheirCrc : Obligations.ProducedFramesCarryTheirCrc := by
  refine ⟨fun o s hfin => ⟨_, exec_posfrm_finite hfin s, ?_⟩,
    fun o s => ⟨_, exec_of_effect (w := .ident o) rfl s, produced_frameOf (headerBytes_identFrame Config.ec o)⟩⟩
  have hproduced (par : Bool) := produced_frameOf (headerBytes_positionFrame Config.nlZero o par)
  exact List.forall_mem_cons.mpr ⟨hproduced false, List.forall_mem_singleton.mpr (hproduced true)⟩

end Sys2Proof.FrameAssembler
end

section
/-! PROOFS. The family of spec/44_modulator.md: how many bits of a modulated buffer are 1 (R100, R105), and how
many words of its conversion are the maximum (R105, R111, R112). -/

namespace Sys2Proof.Modulator

open Sys2Proof Sys2Proof.Machine Sys2Proof.Laws Sys2Proof.Registers Sys2Proof.Buffers Sys2Proof.Encoding

/-! ### Counting the bits of a bit string -/

/-- A count over 2n positions is a count over the even ones and a count over the odd ones. -/
theorem countP_range_two_mul (p : ℕ → Bool) (n : ℕ) :
    (List.range (2 * n)).countP p =
      ((List.range n).countP fun k => p (2 * k)) + (List.range n).countP fun k => p (2 * k + 1) := by
  induction n with
  | zero => rfl
  | succ n ih =>
    rw [mul_add_one, List.range_succ, List.range_succ, List.range_succ]
    simp only [List.countP_append, List.countP_singleton, ih]
    omega

theorem ones_append {u v : ℕ} (x : BitVec u) (y : BitVec v) :
    Reference.ones (x ++ y) = Reference.ones x + Reference.ones y := by
  unfold Reference.ones
  rw [List.range_add, List.countP_append, List.countP_map]
  congr 1
  · refine List.countP_congr fun k hk => ?_
    rw [BitVec.getMsbD_append, if_neg (Nat.not_le.mpr (List.mem_range.mp hk))]
  · refine List.countP_congr fun k _ => ?_
    rw [Function.comp_apply, BitVec.getMsbD_append, if_pos (Nat.le_add_right u k), Nat.add_sub_cancel_left]

/-- A string of n pairs (b, 1 - b) has n ones (R100 (a), (c)). -/
theorem ones_of_pairs {n : ℕ} {b : BitVec (2 * n)}
    (h : ∀ k < n, b.getMsbD (2 * k + 1) = !b.getMsbD (2 * k)) : Reference.ones b = n := by
  have hodd : ((List.range n).countP fun k => b.getMsbD (2 * k + 1)) =
      (List.range n).countP fun k => ¬ b.getMsbD (2 * k) :=
    List.countP_congr fun k hk => by simp [h k (List.mem_range.mp hk)]
  rw [Reference.ones, countP_range_two_mul, hodd, ← List.length_eq_countP_add_countP, List.length_range]

/-! ### The ones of a modulated byte (R99, R100) -/

/-- Bits 2k and 2k + 1 of a modulated byte are a pair (b, 1 - b). -/
theorem modByte_getMsbD_pair (x : Byte) {k : ℕ} (hk : k < 8) :
    (modByte x).getMsbD (2 * k + 1) = !(modByte x).getMsbD (2 * k) := by
  obtain ⟨hfirst, hsecond⟩ := modByte_bits x hk
  rw [BitVec.getMsbD_eq_getLsbD, BitVec.getMsbD_eq_getLsbD, show 16 - 1 - (2 * k + 1) = 14 - 2 * k by omega,
    show 16 - 1 - 2 * k = 15 - 2 * k by omega, hfirst, hsecond]
  simp [show 2 * k + 1 < 16 by omega, show 2 * k < 16 by omega]

theorem ones_modByte (x : Byte) : Reference.ones (modByte x) = 8 :=
  ones_of_pairs (n := 8) fun _ hk => modByte_getMsbD_pair x hk

/-- Bit l of byte i of a byte sequence. -/
theorem byteAt_getMsbD {n i l : ℕ} (b : BitVec (8 * n)) (hi : i < n) (hl : l < 8) :
    (byteAt b i).getMsbD l = b.getMsbD (8 * i + l) := by
  rw [Scope.getMsbD_eq_byteAt_getLsbD b (by omega), show (8 * i + l) / 8 = i by omega,
    show (8 * i + l) % 8 = l by omega, BitVec.getMsbD_eq_getLsbD]
  simp [hl]

/-- Either byte of a modulated byte holds four of its pairs. -/
theorem ones_byteAt_modByte (x : Byte) {i : ℕ} (hi : i < 2) : Reference.ones (byteAt (modByte x) i) = 4 := by
  refine ones_of_pairs (n := 4) fun k hk => ?_
  rw [byteAt_getMsbD (n := 2) _ hi (by omega), byteAt_getMsbD (n := 2) _ hi (by omega),
    show 8 * i + (2 * k + 1) = 2 * (4 * i + k) + 1 by omega, show 8 * i + 2 * k = 2 * (4 * i + k) by omega]
  exact modByte_getMsbD_pair x (by omega)

/-- A byte with four ones is no pause byte and no preamble byte, which have 0, 3 and 1. -/
theorem not_pause_or_preamble_of_ones {y : Byte} (h : Reference.ones y = 4) :
    y ≠ 0x00#8 ∧ y ≠ 0xA1#8 ∧ y ≠ 0x40#8 := by
  refine ⟨?_, ?_, ?_⟩ <;> rintro rfl <;> exact absurd h (by decide)

/-- Settles O30: each byte has four ones, which no pause or preamble byte has. -/
theorem modulatedBytesAreBalanced : Obligations.ModulatedBytesAreBalanced := by
  have hbyte (x : Byte) {i : ℕ} (hi : i < 2) := ones_byteAt_modByte x hi
  exact fun x => List.forall_mem_cons.mpr
    ⟨⟨hbyte x (by omega), not_pause_or_preamble_of_ones (hbyte x (by omega))⟩,
      List.forall_mem_singleton.mpr ⟨hbyte x (by omega), not_pause_or_preamble_of_ones (hbyte x (by omega))⟩⟩

/-! ### The ones of a modulated buffer (R102, R105) -/

theorem ones_preamble : Reference.ones Config.preamble = 4 := by decide

theorem ones_pause (n : ℕ) : Reference.ones (pause n) = 0 :=
  List.countP_eq_zero.mpr fun k _ => by simp [pause]

theorem ones_modFrame (f : Frame) : Reference.ones (modFrame f) = 112 := by
  simp only [modFrame, ones_append, ones_modByte]

theorem ones_modTail (odd : Option Frame) :
    Reference.ones (modTail odd) = if odd.isSome then 116 else 0 := by
  cases odd with
  | none => exact ones_pause 78
  | some o =>
    change Reference.ones (Config.preamble ++ modFrame o ++ pause 48) = 116
    rw [ones_append, ones_append, ones_preamble, ones_modFrame, ones_pause]

theorem ones_modBuffer (even : Frame) (odd : Option Frame) :
    Reference.ones (modBuffer even odd) = if odd.isSome then 232 else 116 := by
  change Reference.ones (pause 48 ++ Config.preamble ++ modFrame even ++ pause 100 ++ modTail odd) = _
  simp only [ones_append, ones_pause, ones_preamble, ones_modFrame, ones_modTail]
  split <;> rfl

/-- The leading pause is the first 384 bits. -/
theorem modBuffer_getMsbD_lead (even : Frame) (odd : Option Frame) {k : ℕ} (hk : k < 384) :
    (modBuffer even odd).getMsbD k = false := by
  rw [Scope.getMsbD_eq_byteAt_getLsbD (n := 256) _ (by omega), byteAt_modBuffer_lead even odd (by omega)]
  exact BitVec.getLsbD_zero

/-- Bit 384 is bit 7 of the first preamble byte, 0xA1. -/
theorem modBuffer_getMsbD_384 (even : Frame) (odd : Option Frame) : (modBuffer even odd).getMsbD 384 = true := by
  rw [Scope.getMsbD_eq_byteAt_getLsbD (n := 256) _ (by omega),
    byteAt_modBuffer_preamble even odd (by omega) (by omega)]
  rfl

/-! ### The words of a conversion that are the maximum (R105, R107) -/

/-- With two different amplitudes the word of a bit is the maximum where the bit is 1. -/
theorem ite_beq_max {lo hi : Sample} (h : lo ≠ hi) (bit : Bool) : ((if bit then hi else lo) == hi) = bit := by
  cases bit with
  | false => exact beq_false_of_ne h
  | true => exact beq_self_eq_true hi

/-- A conversion of a whole buffer gives two words for each of its bits. -/
theorem countWords_convert (s : State) (b : ModBuf) {lo hi : Sample} (h : lo ≠ hi) :
    Reference.countWords (s.convert b 256 lo hi).sampBuf hi = 2 * Reference.ones b := by
  have hword {k : ℕ} (hk : k ∈ List.range 2048) :=
    convert_pair s b 256 lo hi le_rfl (k := k) (List.mem_range.mp hk)
  have heven : ((List.range 2048).countP fun k => wordAt (s.convert b 256 lo hi).sampBuf (2 * k) == hi) =
      Reference.ones b :=
    List.countP_congr fun k hk => by rw [(hword hk).1, ite_beq_max h]
  have hodd : ((List.range 2048).countP fun k => wordAt (s.convert b 256 lo hi).sampBuf (2 * k + 1) == hi) =
      Reference.ones b :=
    List.countP_congr fun k hk => by rw [(hword hk).2, ite_beq_max h]
  rw [Reference.countWords, show 4096 = 2 * 2048 from rfl, countP_range_two_mul, heven, hodd, two_mul]

/-- Settles O31: the ones of `modBuffer`, and the count of a conversion. -/
theorem modbufCountsOfOneBits : Obligations.ModbufCountsOfOneBits :=
  ⟨ones_preamble,
    fun even odd s => ⟨_, exec_of_effect (w := .modBuf even odd) rfl s, ones_modBuffer even odd,
      modBuffer_getMsbD_384 even odd, fun _ hk => modBuffer_getMsbD_lead even odd hk⟩,
    fun b lo hi s h => ⟨_, exec_of_effect (w := .samples b 256 le_rfl lo hi) rfl s, countWords_convert s b h⟩⟩

/-! ### The composites (R111, R112) -/

/-- The effect of POSIQ on a finite report. -/
theorem effect_posiq {o : PosReport} (h : Reference.FiniteReport o) (lo hi : Sample) :
    effect (.posiq o lo hi) = some (.samples (posBuffer Config.nlZero o) Config.modBytes le_rfl lo hi) := by
  rw [effect, if_pos ((posFinite_iff o).mpr h)]

/-- The effect of IDIQ. -/
theorem effect_idiq (o : IdReport) (lo hi : Sample) :
    effect (.idiq o lo hi) = some (.samplesDiag (idBuffer Config.ec o) lo hi (nameDiag o.name)) := rfl

/-- The buffer of a position report carries two frames. -/
theorem ones_posBuffer (nlZero : ℕ) (o : PosReport) : Reference.ones (posBuffer nlZero o) = 232 :=
  ones_modBuffer _ (some _)

/-- The buffer of an identification report carries one frame. -/
theorem ones_idBuffer (ec : BitVec 3) (o : IdReport) : Reference.ones (idBuffer ec o) = 116 :=
  ones_modBuffer _ none

/-- Settles O37: each composite converts a whole buffer, which gives two words for each of its ones. -/
theorem compositesCountOfMaximumWords : Obligations.CompositesCountOfMaximumWords := by
  intro lo hi s h
  refine ⟨fun o hfin => ⟨_, exec_of_effect (effect_posiq hfin lo hi) s, ?_⟩,
    fun o => ⟨_, exec_of_effect (effect_idiq o lo hi) s, ?_⟩⟩
  · exact (countWords_convert s _ h).trans (by rw [ones_posBuffer])
  · exact (countWords_convert s _ h).trans (by rw [ones_idBuffer])

end Sys2Proof.Modulator
end

section
/-! PROOFS. The family of spec/45_iq.md: the words and SLEN a conversion writes (R107, R109), and a length above
256 (R108, R120). -/

namespace Sys2Proof.SampleConverter

open Sys2Proof Sys2Proof.Machine Sys2Proof.Laws Sys2Proof.Registers

/-! ### The words of a conversion (R107) -/

/-- The words of a conversion against the bits of its bytes, bit k being bit 7 - (k mod 8) of byte k div 8
(R14). -/
theorem sampleWords_convert (s : State) (b : ModBuf) {n : ℕ} (hn : n ≤ 256) (lo hi : Sample) :
    Reference.SampleWords b n lo hi (s.convert b n lo hi).sampBuf := by
  intro k hk
  rw [← Scope.getMsbD_eq_byteAt_getLsbD (n := 256) b (by omega)]
  exact convert_pair s b n lo hi hn hk

/-! ### IQCONV (R108, R120) -/

/-- IQCONV with a length of 0 to 256. -/
theorem exec_iqconv_fits {len : BitVec 9} (h : len.toNat ≤ 256) (b : ModBuf) (lo hi : Sample) (s : State) :
    exec (.iqconv b len lo hi) s = .next ((s.convert b len.toNat lo hi).complete .none) :=
  exec_of_effect (i := .iqconv b len lo hi) (w := .samples b len.toNat h lo hi) (congrArg some (dif_pos h)) s

/-- IQCONV with a length of 257 to 511. -/
theorem exec_iqconv_tooLong {len : BitVec 9} (h : 256 < len.toNat) (b : ModBuf) (lo hi : Sample) (s : State) :
    exec (.iqconv b len lo hi) s = .next (s.complete .len) :=
  exec_of_effect (i := .iqconv b len lo hi) (w := .failure .len)
    (congrArg some (dif_neg (Nat.not_le.mpr h))) s

/-- Settles O32: the conversion writes the words of R107 and SLEN, and a length above 256 completes with
E_LEN. -/
theorem iqconvWritesTheSamples : Obligations.IqconvWritesTheSamples :=
  fun mbuf _ lo hi s =>
    ⟨fun hlen => ⟨_, sampleWords_convert s mbuf hlen lo hi, exec_iqconv_fits hlen mbuf lo hi s⟩,
      fun hlong => exec_iqconv_tooLong hlong mbuf lo hi s⟩

/-- Settles O33: both words of a pair are the value of their bit, from which the bit is read back. -/
theorem samplesDetermineTheBits : Obligations.SamplesDetermineTheBits := by
  intro mbuf len lo hi s hlen
  have hslen : (s.convert mbuf len.toNat lo hi).slen.toNat = len.toNat * 8 * 2 := by
    rw [convert_slen s mbuf _ lo hi hlen]
    omega
  refine ⟨_, exec_iqconv_fits hlen mbuf lo hi s, hslen, fun k hk => ?_⟩
  obtain ⟨hI, hQ⟩ := convert_pair s mbuf _ lo hi hlen hk
  rw [State.complete_sampBuf, hI, hQ]
  exact ⟨rfl, rfl, fun hne => hne.symm.ite_eq_left_iff.symm⟩

end Sys2Proof.SampleConverter
end

section
/-! PROOFS. The family of spec/46_composite.md: POSIQ and IDIQ convert the whole buffer of their frames and write
no frame register (R110 to R112). -/

namespace Sys2Proof.Composite

open Sys2Proof Sys2Proof.Machine Sys2Proof.Laws Sys2Proof.Registers Sys2Proof.Buffers Sys2Proof.FrameAssembler
  Sys2Proof.Modulator Sys2Proof.SampleConverter

/-! ### The conversion of a whole buffer (R107, R110) -/

/-- All 4096 words are written, so nothing of the earlier SAMPBUF is left. -/
theorem convert_whole_sampBuf (s : State) (b : ModBuf) (lo hi : Sample) :
    (s.convert b 256 lo hi).sampBuf = packWords (samples b lo hi) 4096 :=
  packWords_congr fun _ hk => if_pos hk

/-- Word k of the conversion of a whole buffer. -/
theorem wordAt_convert_whole (s : State) (b : ModBuf) (lo hi : Sample) {k : ℕ} (hk : k < 4096) :
    wordAt (s.convert b 256 lo hi).sampBuf k = samples b lo hi k := by
  rw [convert_whole_sampBuf, wordAt_packWords _ hk]

/-- What the conversion of a whole buffer writes does not depend on the state before it. -/
theorem convert_whole_independent (s u : State) (b : ModBuf) (lo hi : Sample) :
    (s.convert b 256 lo hi).sampBuf = (u.convert b 256 lo hi).sampBuf ∧
      (s.convert b 256 lo hi).slen = (u.convert b 256 lo hi).slen ∧
      (s.convert b 256 lo hi).vSamp = (u.convert b 256 lo hi).vSamp :=
  ⟨by rw [convert_whole_sampBuf, convert_whole_sampBuf], rfl, rfl⟩

/-- IQCONV of 256 bytes. -/
theorem exec_iqconv_whole (b : ModBuf) (lo hi : Sample) (s : State) :
    exec (.iqconv b 256#9 lo hi) s = .next ((s.convert b 256 lo hi).complete .none) :=
  exec_iqconv_fits (len := 256#9) le_rfl b lo hi s

/-! ### The buffer of one frame (R33, R112) -/

/-- Without an odd frame, the pause after the even frame goes on to the end of the buffer. -/
theorem byteAt_modBuffer_none (even : Frame) {i : ℕ} (hlo : 78 ≤ i) (hhi : i < 256) :
    byteAt (modBuffer even none) i = 0 := by
  by_cases hmid : i < 178
  · exact byteAt_modBuffer_mid even none hlo hmid
  · exact (byteAt_modBuffer_tail even none (by omega) hhi).trans (byteAt_pause 78 _)

/-- The bits after the one frame are 0. -/
theorem modBuffer_none_getMsbD (even : Frame) {k : ℕ} (hlo : 624 ≤ k) (hhi : k < 2048) :
    (modBuffer even none).getMsbD k = false := by
  rw [Scope.getMsbD_eq_byteAt_getLsbD (n := 256) _ hhi, byteAt_modBuffer_none even (by omega) (by omega)]
  exact BitVec.getLsbD_zero

/-- The words after the one frame are the minimum. -/
theorem wordAt_convert_modBuffer_none (s : State) (even : Frame) (lo hi : Sample) {k : ℕ} (hlo : 1248 ≤ k)
    (hhi : k < 4096) : wordAt (s.convert (modBuffer even none) 256 lo hi).sampBuf k = lo := by
  rw [wordAt_convert_whole s _ lo hi hhi, samples, modBuffer_none_getMsbD even (by omega) (by omega)]
  rfl

/-! ### POSIQ (R111) -/

/-- POSIQ on a finite report. -/
theorem exec_posiq_finite {o : PosReport} (h : Reference.FiniteReport o) (lo hi : Sample) (s : State) :
    exec (.posiq o lo hi) s = .next ((s.convert (posBuffer Config.nlZero o) 256 lo hi).complete .none) :=
  exec_of_effect (effect_posiq h lo hi) s

/-- POSIQ on a NaN or an infinity in one of its operands. -/
theorem exec_posiq_nonFinite {o : PosReport} (h : ¬ Reference.FiniteReport o) (lo hi : Sample) (s : State) :
    exec (.posiq o lo hi) s = .next (s.complete .nonFinite) :=
  exec_of_effect (i := .posiq o lo hi) (w := .failure .nonFinite)
    (congrArg some (if_neg (mt (Encoding.posFinite_iff o).mp h))) s

/-- Settles O34: the frames are `positionFrame` of the two parities and the buffer is `posBuffer`. -/
theorem posiqWritesTheSamplesOfBothFrames : Obligations.PosiqWritesTheSamplesOfBothFrames := fun o lo hi s =>
  ⟨fun hfin => ⟨_, _, posBuffer Config.nlZero o, _, positionFrame_reference _ o false,
    positionFrame_reference _ o true, bufferLayout_modBuffer _ _, sampleWords_convert s _ le_rfl lo hi,
    exec_posiq_finite hfin lo hi s⟩, fun hnon => exec_posiq_nonFinite hnon lo hi s⟩

/-- PPMMOD has no other outcome. -/
theorem exec_ppmmod (even : Frame) (odd : Option Frame) (s : State) :
    exec (.ppmmod even odd) s = .next ((s.writeModBuf (modBuffer even odd)).complete .none) :=
  exec_of_effect (w := .modBuf even odd) rfl s

/-- Settles O36: the sequence converts the buffer that POSIQ converts, from another state, on which SAMPBUF and
SLEN do not depend. -/
theorem posiqEqualsTheSequence : Obligations.PosiqEqualsTheSequence := by
  intro o lo hi s hfin
  refine ⟨_, _, _, _, exec_posfrm_finite hfin s, exec_ppmmod _ _ _, exec_iqconv_whole _ lo hi _,
    exec_posiq_finite hfin lo hi s, ?_⟩
  simp only [State.complete_modBuf, State.writeModBuf_modBuf, State.complete_sampBuf, State.complete_slen,
    State.complete_vSamp]
  exact convert_whole_independent s _ (posBuffer Config.nlZero o) lo hi

/-! ### IDIQ (R112) -/

/-- Settles O35: the frame is `identFrame`, the mask `nameDiag` and the buffer `idBuffer`. -/
theorem idiqWritesTheSamplesOfTheFrame : Obligations.IdiqWritesTheSamplesOfTheFrame := fun o lo hi s =>
  ⟨identFrame Config.ec o, nameDiag o.name, idBuffer Config.ec o, _, headerBytes_identFrame _ o,
    identBytes_identFrame _ o, crcBytes_frameOf _, fun _ hi => nameDiag_getLsbD o.name hi,
    bufferLayout_modBuffer _ none, sampleWords_convert s _ le_rfl lo hi,
    fun _ hlo hhi => wordAt_convert_modBuffer_none s _ lo hi hlo hhi, exec_of_effect (effect_idiq o lo hi) s⟩

end Sys2Proof.Composite
end

section
/-! PROOFS. The families of spec/60_exceptions.md and spec/70_reset_and_hazards.md: the error outcomes (R117 to
R119), the handshake of commands (R128, R130, R132), and the reset pulse (R128). -/

namespace Sys2Proof.Exceptions

open Sys2Proof Sys2Proof.Machine Sys2Proof.Registers Sys2Proof.Encoding

/-! ### Error outcomes (R117, R118) -/

/-- An effect leaves ERR other than 0 only where it is an error outcome: every other one ends in success. -/
theorem eq_failure_of_err_ne_zero {w : Effect} {s : State} (h : (w.apply s).err ≠ 0#2) :
    ∃ e, w = .failure e := by
  cases w with
  | failure e => exact ⟨e, rfl⟩
  | _ => exact absurd (State.complete_err .none _) h

/-- An effect overwrites the whole of STATUS, so the outcome of the operation before it leaves no trace. -/
theorem apply_complete (w : Effect) (e : ErrCode) (s : State) : w.apply (s.complete e) = w.apply s := by
  cases w <;> rfl

/-- An instruction does the same whatever outcome the operation before it recorded. -/
theorem exec_complete (j : Instr) (e : ErrCode) (s : State) : exec j (s.complete e) = exec j s := by
  simp only [exec_eq_effect, apply_complete]

/-- Settles O41: the effect is an error outcome, which completes the operation and does nothing else. -/
theorem errorOutcomeChangesStatusAlone : Obligations.ErrorOutcomeChangesStatusAlone := by
  intro i s t h herr
  obtain ⟨w, -, rfl⟩ := effect_of_exec h
  obtain ⟨e, rfl⟩ := eq_failure_of_err_ne_zero herr
  exact ⟨rfl, State.complete_busy e s, State.complete_done e s, fun j => exec_complete j e s⟩

/-! ### The unassigned operation codes (R54, R119) -/

/-- A code outside 0x1 to 0x9 is one of the seven unassigned ones, and the decoder yields its row. -/
theorem isReserved_decodeCmd {c : Cmd} (h : ¬ (1 ≤ c.op.toNat ∧ c.op.toNat ≤ 9)) :
    isReserved (decodeCmd c) := by
  have hcode : ∀ op : BitVec 4, ¬ (1 ≤ op.toNat ∧ op.toNat ≤ 9) →
      op = 0x0 ∨ op = 0xA ∨ op = 0xB ∨ op = 0xC ∨ op = 0xD ∨ op = 0xE ∨ op = 0xF := by decide
  exact (hcode c.op h).imp decodeCmd_of_op <| .imp decodeCmd_of_op <| .imp decodeCmd_of_op <|
    .imp decodeCmd_of_op <| .imp decodeCmd_of_op <| .imp decodeCmd_of_op decodeCmd_of_op

/-- Settles O38: the rows by name, and the bundles because the decoder yields one of those rows. -/
theorem reservedRowsEndInIllop : Obligations.ReservedRowsEndInIllop := by
  refine fun s => ⟨fun i hi => exec_reserved ?_, fun c hc => exec_reserved (isReserved_decodeCmd hc)⟩
  simpa only [List.mem_cons, List.not_mem_nil, or_false] using hi

/-! ### The handshake (R128, R130, R132) -/

/-- The step that takes a command while the core is ready issues it and runs it. -/
theorem step_ready {s : State} {c : Cmd} {rest : List HostEvent} (hhost : s.host = .command c :: rest)
    (hbusy : s.busy = false) (hrst : s.rst = false) :
    step s = exec (decodeCmd c) (s.withHost rest).issue := by
  have hready : (s.withHost rest).cmdReady = true := (State.cmdReady_iff _).mpr ⟨hbusy, hrst⟩
  exact (step_cons hhost).trans (State.present_ready c hready)

/-- STATUS of an operation in progress: ERR, then DONE = 0 and BUSY = 1. -/
theorem statusWord_issue (err : BitVec 2) : statusWord err false true = err ++ 0b01#2 := by
  revert err
  decide

/-- Settles O8: the issue of the command is the update of STATUS. -/
theorem stepRunsTheDecodedCommand : Obligations.StepRunsTheDecodedCommand := by
  intro s c rest hhost hbusy hrst
  rw [step_ready hhost hbusy hrst, ← statusWord_issue]
  rfl

/-- Settles O39: the issued command is of an unassigned row, and its completion overwrites the STATUS of its
issue. -/
theorem unassignedCodeWritesNothing : Obligations.UnassignedCodeWritesNothing := by
  intro s c rest hhost hbusy hrst hop
  exact (step_ready hhost hbusy hrst).trans (exec_reserved (isReserved_decodeCmd hop))

/-- The core is not ready while BUSY is 1 or `rst` is asserted. -/
theorem cmdReady_eq_false {s : State} (h : s.busy = true ∨ s.rst = true) : s.cmdReady = false := by
  rcases h with hbusy | hrst
  · simp [State.cmdReady, hbusy]
  · simp [State.cmdReady, hrst]

/-- Settles O9: the command is taken from the host's actions and not issued. -/
theorem commandNotReadyHasNoEffect : Obligations.CommandNotReadyHasNoEffect := by
  intro s c rest hhost h
  have hready : (s.withHost rest).cmdReady = false := cmdReady_eq_false h
  exact (step_cons hhost).trans (State.present_notReady c hready)

/-! ### The reset pulse (R30, R128) -/

/-- Asserting `rst`, or releasing it where it is asserted, clears the core. -/
theorem driveRst_eq_clear {s : State} {level : Bool} (h : level = true ∨ s.rst = true) :
    s.driveRst level = { s.clear with rst := level } :=
  if_pos (by simpa only [Bool.or_eq_true] using h)

/-- The step that takes such a level clears the core and keeps the host side of its interface. -/
theorem step_rst {s : State} {level : Bool} {rest : List HostEvent} (hhost : s.host = .rst level :: rest)
    (h : level = true ∨ s.rst = true) :
    step s = .next { State.reset with rst := level, host := rest, readData := s.readData } :=
  (step_cons hhost).trans (congrArg _ (driveRst_eq_clear (s := s.withHost rest) h))

/-- Settles O50: the first step clears the core with `rst` asserted, and the second releases it. -/
theorem resetPulseLeavesTheResetState : Obligations.ResetPulseLeavesTheResetState := by
  intro s rest hhost
  exact ⟨_, step_rst hhost (.inl rfl), cmdReady_eq_false (.inr rfl), step_rst rfl (.inr rfl)⟩

end Sys2Proof.Exceptions
end
